-- ==== Sys2Proof/Word.lean ====
section
/-! DEFINITION. The byte, the one unit of data of the block (00_scope R9). -/

namespace Sys2Proof

/-- A byte: 8 bits, compared only for equality, never signed (00_scope R9, 10_state R46). -/
abbrev Byte := BitVec 8

end Sys2Proof
end

