-- ==== Sys2Proof/Config.lean ====
section
/-! DEFINITION. What an instance or its surroundings fix once: the constants and parameters of 00_scope R6, and
the values the spec leaves open, as uninterpreted constants that nothing in Lean can evaluate. -/

namespace Sys2Proof

/-- `ESC`, the escape byte (00_scope R6, 30_encoding R90). -/
def Config.esc : Byte := 0xFF

/-- `END`, the terminator-marker byte (00_scope R6, 30_encoding R90). -/
def Config.endMark : Byte := 0xAF

/-- `CAP_RX`, the capacity of `RXBUF` in both roles (00_scope R6). -/
def Config.capRx : Nat := 256

/-- `CAP_TXPAY` of the DEVICE role (00_scope R6). -/
def Config.devCapTx : Nat := 254

/-- Capacity of the dispatcher's Frame Buffer (45_dispatcher_interface R232, R247). -/
def Config.frameBufCap : Nat := 256

/-- The device type constant (45_dispatcher_interface R252). -/
def Config.deviceType : BitVec 16 := 0x0100

/-- The device revision constant (45_dispatcher_interface R252). -/
def Config.deviceRevision : BitVec 16 := 0x0003

/-- The parameters of 00_scope R6 and 20_memory R71 that the spec leaves OPEN: the model takes them as an argument.
They stand in the state and no step changes them (log 7). -/
structure Params where
  /-- `CAP_TXPAY` of the HOST role. -/
  capTxPay : Nat
  /-- `N_IDLE`, ticks without a byte after which a HOST read ends. -/
  nIdle : Nat
  /-- `CH_DEPTH`, how many bytes a channel direction can hold (20_memory R71). -/
  chDepth : Nat
  deriving DecidableEq, Repr

/-- The parameters of the reset state. DESIGN CHOICE, unsafe (log 7): 1021 is the spec's default (00_scope R6);
the spec gives no default for the other two. -/
def Config.defaultParams : Params := ⟨1021, 25, 4096⟩

/-- `ceil(log2(n))`, for the derived widths of 00_scope R6. -/
def Config.ceilLog2 (n : Nat) : Nat := if n ≤ 1 then 0 else Nat.log2 (n - 1) + 1

/-- `LENW_RX`, the width of `dec_len` (00_scope R6). -/
def Config.lenwRx : Nat := Config.ceilLog2 (Config.capRx + 1)

/-- `LENW_TX` for a transmit capacity (00_scope R6). -/
def Config.lenwTx (cap : Nat) : Nat := Config.ceilLog2 (cap + 1)

/-- `IDXW` for a transmit capacity (00_scope R6). -/
def Config.idxw (cap : Nat) : Nat := Config.ceilLog2 (cap + 3)

/-- `TMRW`, the width of `idle_cnt` (00_scope R6). -/
def Config.tmrw (p : Params) : Nat := Config.ceilLog2 (p.nIdle + 1)

/-- The bytes the resident state starts with, by position: 0 to 8 the ODS record, 9 to 20 the PA record, 21 to 24 the
frequency, 25 the deviation index. DESIGN CHOICE (log 10): the spec gives no defaults and forbids assuming any
(45_dispatcher_interface R232, 93 U15), so this is uninterpreted. -/
opaque Config.startByte : Nat → Byte

/-- Selects the encoding the resident state starts with, modulo 3 (log 10). -/
opaque Config.startEncoding : Nat

/-- What the Frame Buffer starts with, cut to its capacity (log 10). -/
opaque Config.startFrame : List Byte

/-- The wire form of the device type, whose width and byte order the spec does not give (45_dispatcher_interface R234,
91 N9; log 11). -/
opaque Config.deviceTypeWire : BitVec 16 → List Byte

/-- The wire form of the device revision (45_dispatcher_interface R235, 91 N9; log 11). -/
opaque Config.deviceRevisionWire : BitVec 16 → List Byte

/-- Determines the width of the repeat count of RF_SEND, which the spec does not give (45_dispatcher_interface R248,
91 N10; log 16). -/
opaque Config.repeatCountFree : Nat

/-- Which of two statuses the dispatcher answers where the spec allows either (93 U5, U6, U7), by the number of the
command: a fresh free value for each command (log 12). -/
opaque Config.freeChoice : Nat → Bool

end Sys2Proof
end

