-- ==== Sys2Proof/Syntax.lean ====
section
/-! DEFINITION. The operations of the machine, one constructor per row of spec/opcode_table.json, and the two small
name sets that operation selection mentions. -/

namespace Sys2Proof

/-- `ROLE`, fixed when an instance is built (00_scope R3). Here it also names the instance. -/
inductive Role where
  | host
  | device
  deriving DecidableEq, Repr

/-- `enc_ph`: which byte of a two-byte symbol is due (10_state R23). Its numeric codes are free. -/
inductive EncPhase where
  | data
  | stuff2
  | term2
  | done
  deriving DecidableEq, Repr

/-- One operation (30_encoding R106). A byte operand `b` is the delivered or emitted byte; the opcode rows take their
payload from `RXBUF` (10_state R43). -/
inductive Instr where
  -- stream/decoder, 41_decoder R153 to R158
  | decEnd
  | decLitesc
  | decBadesc (b : Byte)
  | decEsc
  | decData (b : Byte)
  -- stream/encoder, 40_encoder R132 to R136
  | encLit (b : Byte)
  | encStuff1
  | encStuff2
  | encTerm1
  | encTerm2
  -- frame/opcode, 45_dispatcher_interface R233 to R249
  | nop
  | getDevType
  | getDevRev
  | getOds
  | setOds
  | getPa
  | setPa
  | getFreq
  | setFreq
  | getFdev
  | setFdev
  | getEnc
  | setEnc
  | loadFrame
  | appendFrame
  | rfSend
  | unknown (v : Byte)
  -- event/encoder and event/decoder, 40_encoder R131, 41_decoder R151, R159
  | encStart
  | decStart
  | decEod
  -- event/host, 42_host_correlator R181 to R189
  | hostCall (id opcode : Byte) (plen : Nat)
  | hostSend
  | hostChfailSend
  | hostEnterRecv
  | hostRecv (b : Byte)
  | hostTimeout
  | hostChfailRecv
  | hostValidate
  -- event/device, 43_device_responder R211 to R216
  | devRecv (b : Byte)
  | devDiscard
  | devDiscardShort
  | devDispatch
  | devRespond (status : Byte) (plen : Nat)
  | devSend
  deriving DecidableEq, Repr

/-- The four groups of rows of the table (30_encoding R106), told apart by the row's `format`. -/
inductive Group where
  | streamDecoder
  | streamEncoder
  | frameOpcode
  | event
  deriving DecidableEq, Repr

/-- The group an operation's row belongs to. -/
def Instr.group : Instr → Group
  | .decEnd | .decLitesc | .decBadesc _ | .decEsc | .decData _ => .streamDecoder
  | .encLit _ | .encStuff1 | .encStuff2 | .encTerm1 | .encTerm2 => .streamEncoder
  | .nop | .getDevType | .getDevRev | .getOds | .setOds | .getPa | .setPa | .getFreq | .setFreq
  | .getFdev | .setFdev | .getEnc | .setEnc | .loadFrame | .appendFrame | .rfSend | .unknown _ => .frameOpcode
  | .encStart | .decStart | .decEod => .event
  | .hostCall _ _ _ | .hostSend | .hostChfailSend | .hostEnterRecv | .hostRecv _ | .hostTimeout
  | .hostChfailRecv | .hostValidate => .event
  | .devRecv _ | .devDiscard | .devDiscardShort | .devDispatch | .devRespond _ _ | .devSend => .event

end Sys2Proof
end

