-- ==== Sys2Proof/WellFormed.lean ====
section
/-! DEFINITION. The operand values an operation can have. -/

namespace Sys2Proof

/-- The opcode values of 30_encoding R98. -/
def listedOpcodes : List Byte :=
  [0x00, 0x01, 0x02, 0x0A, 0x0B, 0x0C, 0x0D, 0x0E, 0x0F, 0x10, 0x11, 0x12, 0x13, 0x14, 0x15, 0x33]

/-- The operand limits the spec puts on an operation: a literal is not `ESC` (30_encoding R91), a bad pair's second
byte is neither `ESC` nor `END` (41_decoder R158), an unlisted opcode is not a listed one (45_dispatcher_interface
R249), a call's id is never `ESC` (42_host_correlator R182), a response payload has at most 254 bytes (R255). The
bound on a call's payload is a parameter and is checked by its meaning (42_host_correlator R181). -/
def Instr.wellFormed : Instr → Bool
  | .decBadesc b => decide (b ≠ Config.esc ∧ b ≠ Config.endMark)
  | .decData b => decide (b ≠ Config.esc)
  | .encLit b => decide (b ≠ Config.esc)
  | .unknown v => decide (v ∉ listedOpcodes)
  | .hostCall id _ _ => decide (id ≠ Config.esc)
  | .devRespond _ plen => decide (plen ≤ Config.devCapTx)
  | .decEnd | .decLitesc | .decEsc | .encStuff1 | .encStuff2 | .encTerm1 | .encTerm2 => true
  | .nop | .getDevType | .getDevRev | .getOds | .setOds | .getPa | .setPa | .getFreq | .setFreq
  | .getFdev | .setFdev | .getEnc | .setEnc | .loadFrame | .appendFrame | .rfSend => true
  | .encStart | .decStart | .decEod | .hostSend | .hostChfailSend | .hostEnterRecv | .hostRecv _
  | .hostTimeout | .hostChfailRecv | .hostValidate => true
  | .devRecv _ | .devDiscard | .devDiscardShort | .devDispatch | .devSend => true

end Sys2Proof
end

