-- ==== Sys2Proof/Decode.lean ====
section
/-! DEFINITION. From what the block or the dispatcher is presented with to the operation it selects, and back. -/

namespace Sys2Proof

/-- What selects an operation that has a bit pattern (30_encoding R106). -/
inductive Fetch where
  /-- stream/decoder: bit 8 is `dec_esc`, bits 7 to 0 the delivered byte. -/
  | stream (w : BitVec 9)
  /-- stream/encoder: `enc_ph`, whether `enc_idx = enc_n`, and the frame byte. -/
  | emit (ph : EncPhase) (last : Bool) (b : Byte)
  /-- frame/opcode: frame byte 1. -/
  | opcode (b : Byte)
  deriving DecidableEq, Repr

/-- Why nothing is selected. -/
inductive DecodeError where
  /-- `enc_ph` = DONE: no encode is in progress (40_encoder R138). -/
  | encoderDone
  /-- The table has no row of this width. -/
  | noSuchWidth
  /-- A bit above the row's pattern is set. -/
  | reservedBits
  deriving DecidableEq, Repr

/-- The selection table of 41_decoder R152. -/
def decodeStream (esc : Bool) (b : Byte) : Instr :=
  if esc then
    if b = Config.endMark then .decEnd
    else if b = Config.esc then .decLitesc
    else .decBadesc b
  else if b = Config.esc then .decEsc
  else .decData b

/-- The selection table of 40_encoder R138. -/
def decodeEmit (ph : EncPhase) (last : Bool) (b : Byte) : Except DecodeError Instr :=
  match ph with
  | .data =>
    if last then .ok .encTerm1
    else if b = Config.esc then .ok .encStuff1
    else .ok (.encLit b)
  | .stuff2 => .ok .encStuff2
  | .term2 => .ok .encTerm2
  | .done => .error .encoderDone

/-- The opcode values of 30_encoding R98; every other value is UNKNOWN (45_dispatcher_interface R249). -/
def decodeOpcode (v : Byte) : Instr :=
  match v.toNat with
  | 0 => .nop
  | 1 => .getDevType
  | 2 => .getDevRev
  | 10 => .getOds
  | 11 => .setOds
  | 12 => .getPa
  | 13 => .setPa
  | 14 => .getFreq
  | 15 => .setFreq
  | 16 => .getFdev
  | 17 => .setFdev
  | 18 => .getEnc
  | 19 => .setEnc
  | 20 => .loadFrame
  | 21 => .appendFrame
  | 51 => .rfSend
  | _ => .unknown v

/-- The selected operation. Total; the one rejection is an encoder that is not running. -/
def decode : Fetch → Except DecodeError Instr
  | .stream w => .ok (decodeStream (w.getLsbD 8) (w.setWidth 8))
  | .emit ph last b => decodeEmit ph last b
  | .opcode v => .ok (decodeOpcode v)

/-- The 9-bit pattern of a delivered byte (30_encoding R106): `dec_esc` first. -/
def streamWord (esc : Bool) (b : Byte) : BitVec 9 := BitVec.ofBool esc ++ b

/-- What selects a well-formed operation, from the same tables. The event rows have no bit pattern (30_encoding
R106), so they have none. -/
def encode : Instr → Option Fetch
  | .decEnd => some (.stream (streamWord true Config.endMark))
  | .decLitesc => some (.stream (streamWord true Config.esc))
  | .decBadesc b => some (.stream (streamWord true b))
  | .decEsc => some (.stream (streamWord false Config.esc))
  | .decData b => some (.stream (streamWord false b))
  | .encLit b => some (.emit .data false b)
  | .encStuff1 => some (.emit .data false Config.esc)
  | .encStuff2 => some (.emit .stuff2 false 0)
  | .encTerm1 => some (.emit .data true 0)
  | .encTerm2 => some (.emit .term2 true 0)
  | .nop => some (.opcode 0x00)
  | .getDevType => some (.opcode 0x01)
  | .getDevRev => some (.opcode 0x02)
  | .getOds => some (.opcode 0x0A)
  | .setOds => some (.opcode 0x0B)
  | .getPa => some (.opcode 0x0C)
  | .setPa => some (.opcode 0x0D)
  | .getFreq => some (.opcode 0x0E)
  | .setFreq => some (.opcode 0x0F)
  | .getFdev => some (.opcode 0x10)
  | .setFdev => some (.opcode 0x11)
  | .getEnc => some (.opcode 0x12)
  | .setEnc => some (.opcode 0x13)
  | .loadFrame => some (.opcode 0x14)
  | .appendFrame => some (.opcode 0x15)
  | .rfSend => some (.opcode 0x33)
  | .unknown v => some (.opcode v)
  | .encStart | .decStart | .decEod => none
  | .hostCall _ _ _ | .hostSend | .hostChfailSend | .hostEnterRecv | .hostRecv _ | .hostTimeout
  | .hostChfailRecv | .hostValidate => none
  | .devRecv _ | .devDiscard | .devDiscardShort | .devDispatch | .devRespond _ _ | .devSend => none

/-- The byte an encoder operation puts on the wire (40_encoder R132 to R136, the pattern of its row). -/
def emittedByte : Instr → Option Byte
  | .encLit b => some b
  | .encStuff1 | .encStuff2 | .encTerm1 => some Config.esc
  | .encTerm2 => some Config.endMark
  | _ => none

/-- The fetch a table word stands for. The table's 8-bit patterns belong to two groups that its `format`, not a bit,
tells apart; a bare word does not say which. DESIGN CHOICE (log 5): the two reserved byte values are read as the
encoder's rows, every other byte as frame byte 1. -/
def tableFetch (nbits w : Nat) : Except DecodeError Fetch :=
  if nbits = 16 then
    if w < 512 then .ok (.stream (BitVec.ofNat 9 w)) else .error .reservedBits
  else if nbits = 8 then
    if 256 ≤ w then .error .reservedBits
    else if w = 0xFF then .ok (.emit .data false Config.esc)
    else if w = 0xAF then .ok (.emit .term2 true 0)
    else .ok (.opcode (BitVec.ofNat 8 w))
  else .error .noSuchWidth

/-- The operation the decoder reads from a word of the table. -/
def decodeTableWord (nbits w : Nat) : Option Instr :=
  match tableFetch nbits w with
  | .ok f => (decode f).toOption
  | .error _ => none

end Sys2Proof
end

