-- ==== Sys2Proof/Machine/State.lean ====
section
/-! DEFINITION. The whole state: two block instances, the two channel directions, the dispatcher's resident state, and
the inputs still to come. Plain data throughout. -/

namespace Sys2Proof.Machine

/-- A byte buffer (20_memory R60): the bytes that have been written, by rising index. An index that is not listed has
no value (10_state R45; log 9). -/
abbrev Memory := List Host.Cell

/-- The one canonical form of a buffer: indices strictly rising. An unlisted index has no value, so no entry can equal
it. -/
abbrev Memory.wf (m : Memory) : Prop := m.Pairwise (fun x y => x.1 < y.1)

/-- `dec_res` (10_state R27). -/
inductive DecRes where
  | noResult
  | frameOk
  | framingError
  | timeout
  deriving DecidableEq, Repr

/-- `tr_state` (10_state R29). -/
inductive TrState where
  | hIdle
  | hSend
  | hRecv
  | dRecv
  | dDispatch
  | dSend
  deriving DecidableEq, Repr

/-- `result` (10_state R32), in the order of its codes 0 to 7. -/
inductive CallResult where
  | ok
  | appStatus
  | channelError
  | framingError
  | timeout
  | shortFrame
  | desync
  | noResult
  deriving DecidableEq, Repr

/-- The registers and buffers of one instance: exactly those of 10_state R20. Indices and lengths are natural numbers;
that they fit their widths is an invariant (log 29). -/
structure Block where
  hdr0 : Byte
  hdr1 : Byte
  txPlen : Nat
  txpay : Memory
  encRun : Bool
  encPh : EncPhase
  encIdx : Nat
  encN : Nat
  decEsc : Bool
  decErr : Bool
  decLen : Nat
  rxbuf : Memory
  decRun : Bool
  decRes : DecRes
  idleCnt : Nat
  trState : TrState
  curId : Byte
  busy : Bool
  done : Bool
  result : CallResult
  respStatus : Byte
  deriving DecidableEq, Repr

/-- The reset values of 10_state R45. -/
def Block.reset (r : Role) : Block where
  hdr0 := 0x00
  hdr1 := 0x00
  txPlen := 0
  txpay := []
  encRun := false
  encPh := .data
  encIdx := 0
  encN := 0
  decEsc := false
  decErr := false
  decLen := 0
  rxbuf := []
  decRun := match r with | .host => false | .device => true
  decRes := .noResult
  idleCnt := 0
  trState := match r with | .host => .hIdle | .device => .dRecv
  curId := 0x00
  busy := false
  done := false
  result := .noResult
  respStatus := 0x00

/-- The ODS record (45_dispatcher_interface R250), fields in wire order. -/
structure OdsRecord where
  modulation : Byte
  clkDiv : Byte
  edgeRate : Byte
  groupWidth : Byte
  bitRate : BitVec 16
  lcWarm : Byte
  divWarm : Byte
  paWarm : Byte
  deriving DecidableEq, Repr

/-- The PA record (45_dispatcher_interface R251), fields in wire order. `alpha` and `beta` are IEEE-754 singles that no
rule computes with. -/
structure PaRecord where
  alpha : BitVec 32
  beta : BitVec 32
  level : Byte
  maxDrv : Byte
  nominalCap : BitVec 16
  deriving DecidableEq, Repr

/-- The dispatcher's resident state (45_dispatcher_interface R232), and its answer while it waits for its
acknowledge pulse (10_state R43; log 19). `freq` holds the four bytes as they are carried, the first carried byte
uppermost; how they read as a number is not given (91 N10; log 15). -/
structure Dispatcher where
  ods : OdsRecord
  pa : PaRecord
  freq : BitVec 32
  fdev : Byte
  enc : Byte
  frameBuf : List Byte
  devType : BitVec 16
  devRev : BitVec 16
  answer : Option (Byte × Nat)
  deriving DecidableEq, Repr

/-- The resident state at firmware start: uninterpreted start values (log 10) and the identity constants of
45_dispatcher_interface R252. -/
def Dispatcher.start : Dispatcher where
  ods :=
    { modulation := Config.startByte 0, clkDiv := Config.startByte 1, edgeRate := Config.startByte 2,
      groupWidth := Config.startByte 3, bitRate := Config.startByte 4 ++ Config.startByte 5,
      lcWarm := Config.startByte 6, divWarm := Config.startByte 7, paWarm := Config.startByte 8 }
  pa :=
    { alpha := Config.startByte 9 ++ Config.startByte 10 ++ Config.startByte 11 ++ Config.startByte 12,
      beta := Config.startByte 13 ++ Config.startByte 14 ++ Config.startByte 15 ++ Config.startByte 16,
      level := Config.startByte 17, maxDrv := Config.startByte 18,
      nominalCap := Config.startByte 19 ++ Config.startByte 20 }
  freq := Config.startByte 21 ++ Config.startByte 22 ++ Config.startByte 23 ++ Config.startByte 24
  fdev := Config.startByte 25
  enc := BitVec.ofNat 8 (Config.startEncoding % 3)
  frameBuf := Config.startFrame.take Config.frameBufCap
  devType := Config.deviceType
  devRev := Config.deviceRevision
  answer := none

/-- One transmission handed to the excluded radio hardware (45_dispatcher_interface R248): the Frame Buffer and the
configuration it is sent with, and the bytes of the repeat count. The model's own record (log 17). -/
structure RadioJob where
  frame : List Byte
  ods : OdsRecord
  pa : PaRecord
  freq : BitVec 32
  fdev : Byte
  enc : Byte
  repeatCount : List Byte
  deriving DecidableEq, Repr

/-- The inputs of one clock cycle of the HOST instance (10_state R39). `start` carries `id_rnd`, `opcode`, `plen`; `pw`
the write port; `rd` an address the client reads through `rr_addr`. `rxValid` is the channel's: it offers its front
byte if it holds one. -/
structure HostIn where
  rst : Bool := false
  chFail : Bool := false
  txReady : Bool := false
  rxValid : Bool := false
  tick : Bool := false
  start : Option (Byte × Byte × Nat) := none
  pw : Option (Nat × Byte) := none
  rd : Option Nat := none
  deriving DecidableEq, Repr

/-- What `disp_ack`, `rsp_status` and `rsp_plen` show in one cycle: no pulse, the pulse of the dispatcher of
45_dispatcher_interface with the answer it holds, or the pulse of any other dispatcher (92 D22). -/
inductive Ack where
  | low
  | own
  | port (status : Byte) (plen : Nat)
  deriving DecidableEq, Repr

/-- The inputs of one clock cycle of the DEVICE instance (10_state R39). -/
structure DevIn where
  rst : Bool := false
  txReady : Bool := false
  rxValid : Bool := false
  ack : Ack := .low
  pw : Option (Nat × Byte) := none
  rd : Option Nat := none
  deriving DecidableEq, Repr

/-- One move of the system: a clock cycle of an instance, a service by the dispatcher, its start-up
(45_dispatcher_interface R232), or the channel direction fed by `r` losing or altering the byte at place `i`
(20_memory R72). -/
inductive Move where
  | host (i : HostIn)
  | device (i : DevIn)
  | dispatcher
  | dispatcherStart
  | lose (r : Role) (i : Nat)
  | alter (r : Role) (i : Nat) (v : Byte)
  deriving DecidableEq, Repr

/-- The state of the complete system (00_scope R7, 10_state R37). -/
structure State where
  params : Params
  host : Block
  device : Block
  hd : List Byte
  dh : List Byte
  disp : Dispatcher
  radio : List RadioJob
  turn : Role
  script : List Move
  freeCtr : Nat
  deriving DecidableEq, Repr

/-- Why the machine stops with a fault. -/
inductive Fault where
  /-- A buffer byte that nothing has written was read: by the encoder, the transport, the dispatcher or the client.
  10_state R45 calls for a fault of the model. Safe: the hardware would go on with some byte. -/
  | unspecifiedByte
  /-- The client or the dispatcher read `RXBUF` at or above `CAP_RX`, an address 20_memory R60 does not have. Safe. -/
  | noSuchAddress
  deriving DecidableEq, Repr

/-- Why an operation has no outcome. -/
inductive Refusal where
  /-- The instruction has no meaning yet. Raised only by `exec`'s arms. Safe. -/
  | notModelled (mnemonic : String)
  /-- The operation was asked for in a state where the spec does not select it ("Selected when"). No step asks for one
  (log 4). Safe. -/
  | notSelected (operation : String)
  /-- The id source presented 0xFF at `start`: 93 U8 has the model refuse it. Safe. -/
  | idSentinel
  /-- `plen` above `CAP_TXPAY` or `rsp_plen` above 254: 93 U9 has the model refuse it. Safe. -/
  | payloadTooLong
  deriving DecidableEq, Repr

/-- The system right after reset: both instances at 10_state R45, both channel directions empty, the dispatcher at its
start (log 10), no input to come (log 2). -/
def State.reset : State where
  params := Config.defaultParams
  host := Block.reset .host
  device := Block.reset .device
  hd := []
  dh := []
  disp := Dispatcher.start
  radio := []
  turn := .device
  script := []
  freeCtr := 0

end Sys2Proof.Machine
end

