-- ==== Sys2Proof/Machine/Flags.lean ====
section
/-! DEFINITION. The two flags of the block, `dec_esc` and `dec_err` (10_state R35), and the outcome they decide. -/

namespace Sys2Proof.Machine

/-- `dec_esc` after a delivered byte (10_state R35): set by an `ESC` arriving with the flag clear, else clear. -/
def escAfter (esc : Bool) (b : Byte) : Bool := !esc && decide (b = Config.esc)

/-- `dec_err` after an Append (41_decoder R155): kept if set, set by an append at capacity. -/
def errAfterAppend (err : Bool) (len cap : Nat) : Bool := err || decide (len = cap)

/-- `dec_res` when a terminator ends the decode (41_decoder R156). -/
def resAtEnd (err : Bool) : DecRes := if err then .framingError else .frameOk

/-- `dec_res` when the data ends (41_decoder R159). -/
def resAtEod (err : Bool) : DecRes := if err then .framingError else .timeout

/-- The 3-bit code of a result (10_state R32, 30_encoding R104). -/
def resultCode : CallResult → BitVec 3
  | .ok => 0
  | .appStatus => 1
  | .channelError => 2
  | .framingError => 3
  | .timeout => 4
  | .shortFrame => 5
  | .desync => 6
  | .noResult => 7

end Sys2Proof.Machine
end

