-- ==== Sys2Proof/Machine/Ops.lean ====
section
/-! DEFINITION. The named operations over buffers, instances and streams, and the completion of a call. -/

namespace Sys2Proof.Machine

/-- The three outcomes of a meaning. -/
abbrev Out := Host.Outcome State Fault Refusal

/-- Go on with `k` if `o` gave a next state. -/
def andThen (o : Out) (k : State → Out) : Out :=
  match o with
  | .next s => k s
  | .fault f => .fault f
  | .refused r => .refused r

/-- The operation is not selected in this state (log 4). -/
def notSelected (operation : String) : Out := .refused (.notSelected operation)

/-! ### Buffers -/

/-- The byte at an index, if one has been written (20_memory R60, 10_state R45). -/
def Memory.read (m : Memory) (a : Nat) : Option Byte :=
  match m with
  | [] => none
  | (k, v) :: t => if k = a then some v else Memory.read t a

/-- Write one byte, keeping the canonical form (20_memory R66). -/
def Memory.write (m : Memory) (a : Nat) (v : Byte) : Memory :=
  match m with
  | [] => [(a, v)]
  | (k, w) :: t =>
    if a < k then (a, v) :: (k, w) :: t
    else if a = k then (a, v) :: t
    else (k, w) :: Memory.write t a v

/-- Write bytes at `a`, `a + 1`, … in turn. -/
def Memory.writeList (m : Memory) (a : Nat) : List Byte → Memory
  | [] => m
  | v :: t => Memory.writeList (Memory.write m a v) (a + 1) t

/-- The `n` bytes from index `a` up, if all have been written. -/
def Memory.readRange (m : Memory) (a : Nat) : Nat → Option (List Byte)
  | 0 => some []
  | n + 1 =>
    match Memory.read m a, Memory.readRange m (a + 1) n with
    | some v, some t => some (v :: t)
    | _, _ => none

/-! ### Instances and streams -/

/-- The instance named by its role. -/
def State.block (s : State) : Role → Block
  | .host => s.host
  | .device => s.device

/-- Replace the instance named by its role. -/
def State.setBlock (s : State) (r : Role) (b : Block) : State :=
  match r with
  | .host => { s with host := b }
  | .device => { s with device := b }

/-- The channel direction an instance feeds (20_memory R60): the bytes accepted and not yet delivered. -/
def State.stream (s : State) : Role → List Byte
  | .host => s.hd
  | .device => s.dh

/-- Replace the contents of a channel direction. -/
def State.setStream (s : State) (r : Role) (q : List Byte) : State :=
  match r with
  | .host => { s with hd := q }
  | .device => { s with dh := q }

/-- The far end. -/
def otherRole : Role → Role
  | .host => .device
  | .device => .host

/-- `CAP_TXPAY` by role (00_scope R6). -/
def State.capTx (s : State) : Role → Nat
  | .host => s.params.capTxPay
  | .device => Config.devCapTx

/-- `emit v` accepted by the channel (00_scope R11, 10_state R40): the byte joins the end of the stream. A channel that
is full drops it (20_memory R71; log 8). -/
def State.emit (s : State) (r : Role) (v : Byte) : State :=
  if (s.stream r).length < s.params.chDepth then s.setStream r (s.stream r ++ [v]) else s

/-- Take the byte at the front of the stream an instance reads (20_memory R66). -/
def State.takeFront (s : State) (r : Role) : State :=
  s.setStream (otherRole r) (s.stream (otherRole r)).tail

/-! ### Encoder and decoder -/

/-- ENC.START's writes (40_encoder R131). -/
def Block.encStart (b : Block) : Block :=
  { b with encN := 2 + b.txPlen, encIdx := 0, encPh := .data, encRun := true }

/-- DEC.START's writes (41_decoder R151). -/
def Block.decStart (b : Block) : Block :=
  { b with decEsc := false, decErr := false, decLen := 0, decRes := .noResult, decRun := true, idleCnt := 0 }

/-- `Append(v)` (41_decoder R155). -/
def Block.append (b : Block) (v : Byte) : Block :=
  if b.decErr then b
  else if b.decLen = Config.capRx then
    { b with decErr := errAfterAppend b.decErr b.decLen Config.capRx }
  else
    { b with rxbuf := Memory.write b.rxbuf b.decLen v, decLen := b.decLen + 1 }

/-- What every delivered byte does besides its operation's own writes: the inactivity timer restarts
(41_decoder R152, 60_exceptions R291). -/
def Block.restartTimer (b : Block) : Block := { b with idleCnt := 0 }

/-! ### The end of a call, the block's analog of taking an exception -/

/-- What every ended call writes (42_host_correlator R189). -/
def Block.endCall (b : Block) (res : CallResult) (status : Byte) : Block :=
  { b with result := res, respStatus := status, busy := false, done := true, trState := .hIdle }

/-- `raise <Kind>` for a kind other than ApplicationStatus (60_exceptions R283): completion. The decoder flags,
`dec_len`, `RXBUF`, `cur_id`, `hdr0`, `hdr1`, `tx_plen`, `TXPAY` keep their values. There is no return: the next call
begins with the next `start` (R285), that is `Block.beginCall`. -/
def Block.raise (b : Block) (kind : CallResult) : Block :=
  { b.endCall kind 0x00 with encRun := false, decRun := false }

/-- The register writes of HOST.CALL (42_host_correlator R181), ENC.START among them; they clear what the last
completion left (60_exceptions R285). -/
def Block.beginCall (b : Block) (id opcode : Byte) (plen : Nat) : Block :=
  { Block.encStart
      { b with curId := id, hdr0 := id, hdr1 := opcode, txPlen := plen, busy := true, done := false,
               result := .noResult, respStatus := 0x00 }
    with trState := .hSend }

/-- One count of the inactivity timer (60_exceptions R291, 10_state R46). -/
def Block.countTick (b : Block) (nIdle : Nat) : Block :=
  if b.idleCnt < nIdle then { b with idleCnt := b.idleCnt + 1 } else b

end Sys2Proof.Machine
end

