-- ==== Sys2Proof/Machine/Operands.lean ====
section
/-! DEFINITION. Where operands come from: the frame the encoder reads, the fields of a decoded frame, the records and
fields inside a payload, and the byte values the dispatcher knows. -/

namespace Sys2Proof.Machine

/-! ### The frame being encoded -/

/-- `F[k]` (40_encoder R137): the two header registers, then `TXPAY`. -/
def Block.frameByte (b : Block) : Nat → Option Byte
  | 0 => some b.hdr0
  | 1 => some b.hdr1
  | k + 2 => Memory.read b.txpay k

/-- What selects the encoder operation (40_encoder R138). The frame byte is read only where the table looks at it;
`none` if it is unspecified. -/
def Block.encoderFetch (b : Block) : Option Fetch :=
  match b.encPh with
  | .data =>
    if b.encIdx = b.encN then some (.emit .data true 0)
    else (b.frameByte b.encIdx).map (fun f => Fetch.emit .data false f)
  | ph => some (.emit ph (decide (b.encIdx = b.encN)) 0)

/-! ### The decoded frame -/

/-- The payload of a decoded frame, `RXBUF[2 .. dec_len-1]` (30_encoding R96). Its length is offered only when
`dec_len` ≥ 2 (10_state R46); the empty list that a shorter frame shows here is read by no step (log 37). -/
def Block.payload (b : Block) : Option (List Byte) := Memory.readRange b.rxbuf 2 (b.decLen - 2)

/-- The whole decoded frame, `RXBUF[0 .. dec_len-1]` (10_state R26). -/
def Block.frame (b : Block) : Option (List Byte) := Memory.readRange b.rxbuf 0 b.decLen

/-! ### Records in a payload, most significant byte first (20_memory R63) -/

/-- The two bytes of a 16-bit field. -/
def be16 (v : BitVec 16) : List Byte := [v.extractLsb' 8 8, v.extractLsb' 0 8]

/-- The four bytes of a 32-bit field. -/
def be32 (v : BitVec 32) : List Byte :=
  [v.extractLsb' 24 8, v.extractLsb' 16 8, v.extractLsb' 8 8, v.extractLsb' 0 8]

/-- The 9 bytes of an ODS record (45_dispatcher_interface R250). -/
def packOds (o : OdsRecord) : List Byte :=
  [o.modulation, o.clkDiv, o.edgeRate, o.groupWidth] ++ be16 o.bitRate ++ [o.lcWarm, o.divWarm, o.paWarm]

/-- An ODS record from exactly 9 bytes. -/
def unpackOds : List Byte → Option OdsRecord
  | [p0, p1, p2, p3, p4, p5, p6, p7, p8] => some ⟨p0, p1, p2, p3, p4 ++ p5, p6, p7, p8⟩
  | _ => none

/-- The 12 bytes of a PA record (45_dispatcher_interface R251). -/
def packPa (p : PaRecord) : List Byte := be32 p.alpha ++ be32 p.beta ++ [p.level, p.maxDrv] ++ be16 p.nominalCap

/-- A PA record from exactly 12 bytes. -/
def unpackPa : List Byte → Option PaRecord
  | [p0, p1, p2, p3, p4, p5, p6, p7, p8, p9, p10, p11] =>
    some ⟨p0 ++ p1 ++ p2 ++ p3, p4 ++ p5 ++ p6 ++ p7, p8, p9, p10 ++ p11⟩
  | _ => none

/-- The carried frequency from exactly 4 bytes (45_dispatcher_interface R241; log 15). -/
def unpackFreq : List Byte → Option (BitVec 32)
  | [p0, p1, p2, p3] => some (p0 ++ p1 ++ p2 ++ p3)
  | _ => none

/-- Every ODS field fits the bit width of the data model (45_dispatcher_interface R250; log 13). -/
def odsFits (o : OdsRecord) : Bool :=
  decide (o.clkDiv.toNat < 2 ^ 3 ∧ o.edgeRate.toNat < 2 ^ 2 ∧ o.groupWidth.toNat < 2 ^ 3 ∧
    o.bitRate.toNat < 2 ^ 15 ∧ o.lcWarm.toNat < 2 ^ 4 ∧ o.divWarm.toNat < 2 ^ 4 ∧ o.paWarm.toNat < 2 ^ 4)

/-- Every PA field fits the bit width of the data model (45_dispatcher_interface R251; log 13). -/
def paFits (p : PaRecord) : Bool :=
  decide (p.level.toNat < 2 ^ 7 ∧ p.maxDrv.toNat < 2 ^ 1 ∧ p.nominalCap.toNat < 2 ^ 9)

/-- The largest deviation index the host's algorithm sends (45_dispatcher_interface R243; log 13). -/
def fdevMax : Nat := 104

/-- The largest encoding value (45_dispatcher_interface R245). -/
def encodingMax : Nat := 2

/-- The transmit cookie (30_encoding R102). -/
def sendCookie : List Byte := [0xCA, 0x4F, 0x09, 0x96]

/-- The width of RF_SEND's repeat count, 1 to 250 bytes: open (45_dispatcher_interface R248; log 16). -/
def repeatCountWidth : Nat := 1 + Config.repeatCountFree % 250

/-- The longest response of the dispatcher (45_dispatcher_interface R255). -/
def maxResponse : Nat := 12

/-- The wire form of the device type, of open layout and at most `maxResponse` bytes (R234, R255; log 11). -/
def deviceTypeBytes (d : Dispatcher) : List Byte := (Config.deviceTypeWire d.devType).take maxResponse

/-- The wire form of the device revision (R235, R255; log 11). -/
def deviceRevisionBytes (d : Dispatcher) : List Byte := (Config.deviceRevisionWire d.devRev).take maxResponse

/-! ### Status values (30_encoding R99) -/

/-- OK. -/
def statusOk : Byte := 0x00
/-- UNKNOWN_CMD. -/
def statusUnknownCmd : Byte := 0x01
/-- LOGIC_ERROR, which no rule returns (45_dispatcher_interface R254). -/
def statusLogicError : Byte := 0x02
/-- INVALID_FRAME_LEN. -/
def statusFrameLen : Byte := 0x10
/-- INVALID_ARGUMENT. -/
def statusArgument : Byte := 0x11
/-- INVALID_SEND_COOKIE. -/
def statusSendCookie : Byte := 0x50
/-- TOO_MUCH_DATA. -/
def statusTooMuchData : Byte := 0x51

end Sys2Proof.Machine
end

