-- ==== Sys2Proof/Machine/Ports.lean ====
section
/-! DEFINITION. The output ports of an instance, as functions of its registers and the cycle's inputs (10_state R39 to
R43, R47). In the DEVICE role `ch_fail` does not exist and is given as `false`. -/

namespace Sys2Proof.Machine

/-- `tx_valid` (10_state R40). -/
def Block.txValid (b : Block) (chFail rst : Bool) : Bool := b.encRun && !chFail && !rst

/-- `rx_ready` (10_state R41). -/
def Block.rxReady (b : Block) (chFail rst : Bool) : Bool := b.decRun && !chFail && !rst

/-- `tx_data`: while `enc_run` = 1 the byte of the selected encoder operation (40_encoder R138). DESIGN CHOICE (log 37):
while `enc_run` = 0 no operation is selected and the spec gives the port no value, so none is shown; 10_state R39 gives
it a meaning only with `tx_valid` = 1. -/
def Block.txData (b : Block) : Option Byte :=
  if b.encRun then
    match b.encoderFetch with
    | none => none
    | some f =>
      match decode f with
      | .ok i => emittedByte i
      | .error _ => none
  else none

/-- `rx_len` (10_state R39). -/
def Block.rxLen (b : Block) : Nat := b.decLen

/-- `rr_data` for an address on `rr_addr` (10_state R39). -/
def Block.rrData (b : Block) (a : Nat) : Option Byte := if a < Config.capRx then Memory.read b.rxbuf a else none

/-- `disp_req` (10_state R39). -/
def Block.dispReq (b : Block) : Bool := decide (b.trState = .dDispatch)

/-- `cmd_opcode` (10_state R39). -/
def Block.cmdOpcode (b : Block) : Option Byte := Memory.read b.rxbuf 1

/-- `cmd_plen` (10_state R39), offered only when `dec_len` ≥ 2 (10_state R46). DESIGN CHOICE (log 37): below that the
spec gives the port no value, so none is shown. -/
def Block.cmdPlen (b : Block) : Option Nat := if 2 ≤ b.decLen then some (b.decLen - 2) else none

/-- A read through `rr_addr` (10_state R42, R43): the fault it makes, if any (10_state R45, 93 U11). Otherwise it has no
side effect (20_memory R66). -/
def Block.readFault (b : Block) (rd : Option Nat) : Option Fault :=
  match rd with
  | none => none
  | some a =>
    if Config.capRx ≤ a then some .noSuchAddress
    else
      match Memory.read b.rxbuf a with
      | none => some .unspecifiedByte
      | some _ => none

/-- A write through `pw_en`, `pw_addr`, `pw_data` (10_state R42, R43, 20_memory R73): taken only while `open_`, and only
below the capacity. -/
def Block.portWrite (b : Block) (open_ : Bool) (cap : Nat) (pw : Option (Nat × Byte)) : Block :=
  match pw with
  | none => b
  | some (a, v) => if open_ = true ∧ a < cap then { b with txpay := Memory.write b.txpay a v } else b

end Sys2Proof.Machine
end

