-- ==== Sys2Proof/Machine/Commands.lean ====
section
/-! DEFINITION. The Command Dispatcher's opcodes (45_dispatcher_interface R233 to R249). Each meaning reads the waiting
command through the dispatcher port, computes an answer, writes its payload into the DEVICE instance's `TXPAY` and holds
the answer for the acknowledge pulse (10_state R43; log 19). -/

namespace Sys2Proof.Machine

/-- What `Dispatch(op, P)` gives (45_dispatcher_interface R230): status, response payload, resident state after, and
what is handed to the radio. -/
structure Reply where
  status : Byte
  payload : List Byte
  disp : Dispatcher
  job : Option RadioJob
  deriving DecidableEq, Repr

/-- OK with a payload, state unchanged. -/
def Reply.okWith (d : Dispatcher) (p : List Byte) : Reply := ⟨statusOk, p, d, none⟩

/-- OK after a change of the resident state, empty payload (log 14). -/
def Reply.stored (d : Dispatcher) : Reply := ⟨statusOk, [], d, none⟩

/-- A status other than OK: the resident state is unchanged (45_dispatcher_interface R231), empty payload (log 14). -/
def Reply.fail (d : Dispatcher) (st : Byte) : Reply := ⟨st, [], d, none⟩

/-- The dispatcher serves the waiting command (10_state R43, 45_dispatcher_interface R230): once for each (log 19).
`f` gets the resident state, the command payload and the free choice of this command (log 12). -/
def serve (operation : String) (f : Dispatcher → List Byte → Bool → Reply) (s : State) : Out :=
  if s.device.dispReq = true ∧ s.disp.answer = none then
    match s.device.payload with
    | none => .fault .unspecifiedByte
    | some p =>
      let r := f s.disp p (Config.freeChoice s.freeCtr)
      .next { s with
        disp := { r.disp with answer := some (r.status, r.payload.length) }
        device := { s.device with txpay := Memory.writeList s.device.txpay 0 r.payload }
        radio := s.radio ++ r.job.toList
        freeCtr := s.freeCtr + 1 }
  else notSelected operation

/-- A command that takes no payload and answers `p`. With a payload it may be refused for its length (93 U6; log 12). -/
def answerGet (p : List Byte) (d : Dispatcher) (payload : List Byte) (c : Bool) : Reply :=
  if payload = [] ∨ c = true then Reply.okWith d p else Reply.fail d statusFrameLen

/-- NOP's answer (45_dispatcher_interface R233). -/
def replyNop (d : Dispatcher) (p : List Byte) (c : Bool) : Reply := answerGet [] d p c

/-- GET_DEV_TYPE's answer (R234). -/
def replyGetDevType (d : Dispatcher) (p : List Byte) (c : Bool) : Reply := answerGet (deviceTypeBytes d) d p c

/-- GET_DEV_REV's answer (R235). -/
def replyGetDevRev (d : Dispatcher) (p : List Byte) (c : Bool) : Reply := answerGet (deviceRevisionBytes d) d p c

/-- GET_ODS's answer (R236). -/
def replyGetOds (d : Dispatcher) (p : List Byte) (c : Bool) : Reply := answerGet (packOds d.ods) d p c

/-- SET_ODS's answer (R237): exactly 9 bytes; fields outside their widths may be refused (93 U7; log 12). DESIGN CHOICE
(log 38): if they are not, every byte is kept whole, as it was carried; the spec does not speak of masking. -/
def replySetOds (d : Dispatcher) (p : List Byte) (c : Bool) : Reply :=
  match unpackOds p with
  | none => Reply.fail d statusFrameLen
  | some o => if odsFits o = true ∨ c = true then Reply.stored { d with ods := o } else Reply.fail d statusArgument

/-- GET_PA's answer (R238). -/
def replyGetPa (d : Dispatcher) (p : List Byte) (c : Bool) : Reply := answerGet (packPa d.pa) d p c

/-- SET_PA's answer (R239): exactly 12 bytes; fields outside their widths may be refused (93 U7; log 12). DESIGN CHOICE
(log 38): if they are not, every byte is kept whole, as it was carried; the spec does not speak of masking. -/
def replySetPa (d : Dispatcher) (p : List Byte) (c : Bool) : Reply :=
  match unpackPa p with
  | none => Reply.fail d statusFrameLen
  | some v => if paFits v = true ∨ c = true then Reply.stored { d with pa := v } else Reply.fail d statusArgument

/-- GET_FREQ's answer (R240). -/
def replyGetFreq (d : Dispatcher) (p : List Byte) (c : Bool) : Reply := answerGet (be32 d.freq) d p c

/-- SET_FREQ's answer (R241): exactly 4 bytes, no range. -/
def replySetFreq (d : Dispatcher) (p : List Byte) (_c : Bool) : Reply :=
  match unpackFreq p with
  | none => Reply.fail d statusFrameLen
  | some v => Reply.stored { d with freq := v }

/-- GET_FDEV's answer (R242). -/
def replyGetFdev (d : Dispatcher) (p : List Byte) (c : Bool) : Reply := answerGet [d.fdev] d p c

/-- SET_FDEV's answer (R243): exactly 1 byte; an index above 104 may be refused (93 U7; log 12), else it is kept as it
was carried (DESIGN CHOICE, log 38). -/
def replySetFdev (d : Dispatcher) (p : List Byte) (c : Bool) : Reply :=
  match p with
  | [v] => if v.toNat ≤ fdevMax ∨ c = true then Reply.stored { d with fdev := v } else Reply.fail d statusArgument
  | _ => Reply.fail d statusFrameLen

/-- GET_ENC's answer (R244). -/
def replyGetEnc (d : Dispatcher) (p : List Byte) (c : Bool) : Reply := answerGet [d.enc] d p c

/-- SET_ENC's answer (R245): exactly 1 byte in 0, 1, 2. With a wrong length whose first byte is out of range both tests
fail and either status may come (93 U5; log 12). -/
def replySetEnc (d : Dispatcher) (p : List Byte) (c : Bool) : Reply :=
  match p with
  | [] => Reply.fail d statusFrameLen
  | [v] => if v.toNat ≤ encodingMax then Reply.stored { d with enc := v } else Reply.fail d statusArgument
  | v :: _ :: _ =>
    if v.toNat ≤ encodingMax ∨ c = true then Reply.fail d statusFrameLen else Reply.fail d statusArgument

/-- LOAD_FRAME's answer (R246). -/
def replyLoadFrame (d : Dispatcher) (p : List Byte) (_c : Bool) : Reply := Reply.stored { d with frameBuf := p }

/-- APPEND_FRAME's answer (R247). -/
def replyAppendFrame (d : Dispatcher) (p : List Byte) (_c : Bool) : Reply :=
  if Config.frameBufCap < d.frameBuf.length + p.length then Reply.fail d statusTooMuchData
  else Reply.stored { d with frameBuf := d.frameBuf ++ p }

/-- The transmission RF_SEND hands to the radio (R248). -/
def radioJob (d : Dispatcher) (count : List Byte) : RadioJob :=
  ⟨d.frameBuf, d.ods, d.pa, d.freq, d.fdev, d.enc, count⟩

/-- RF_SEND's answer (R248): the cookie, then a repeat count of open width (log 16). If cookie and length are both
wrong either status may come (93 U5; log 12, log 18). The Frame Buffer is kept (R232; log 17). -/
def replyRfSend (d : Dispatcher) (p : List Byte) (c : Bool) : Reply :=
  if p.take 4 = sendCookie then
    if p.length = 4 + repeatCountWidth then ⟨statusOk, [], d, some (radioJob d (p.drop 4))⟩
    else Reply.fail d statusFrameLen
  else if p.length = 4 + repeatCountWidth ∨ c = true then Reply.fail d statusSendCookie
  else Reply.fail d statusFrameLen

/-- The answer to any other opcode (R249). -/
def replyUnknown (d : Dispatcher) (_p : List Byte) (_c : Bool) : Reply := Reply.fail d statusUnknownCmd

/-- NOP (45_dispatcher_interface R233). -/
def execNop (s : State) : Out := serve "NOP" replyNop s
/-- GET_DEV_TYPE (R234). -/
def execGetDevType (s : State) : Out := serve "GET_DEV_TYPE" replyGetDevType s
/-- GET_DEV_REV (R235). -/
def execGetDevRev (s : State) : Out := serve "GET_DEV_REV" replyGetDevRev s
/-- GET_ODS (R236). -/
def execGetOds (s : State) : Out := serve "GET_ODS" replyGetOds s
/-- SET_ODS (R237). -/
def execSetOds (s : State) : Out := serve "SET_ODS" replySetOds s
/-- GET_PA (R238). -/
def execGetPa (s : State) : Out := serve "GET_PA" replyGetPa s
/-- SET_PA (R239). -/
def execSetPa (s : State) : Out := serve "SET_PA" replySetPa s
/-- GET_FREQ (R240). -/
def execGetFreq (s : State) : Out := serve "GET_FREQ" replyGetFreq s
/-- SET_FREQ (R241). -/
def execSetFreq (s : State) : Out := serve "SET_FREQ" replySetFreq s
/-- GET_FDEV (R242). -/
def execGetFdev (s : State) : Out := serve "GET_FDEV" replyGetFdev s
/-- SET_FDEV (R243). -/
def execSetFdev (s : State) : Out := serve "SET_FDEV" replySetFdev s
/-- GET_ENC (R244). -/
def execGetEnc (s : State) : Out := serve "GET_ENC" replyGetEnc s
/-- SET_ENC (R245). -/
def execSetEnc (s : State) : Out := serve "SET_ENC" replySetEnc s
/-- LOAD_FRAME (R246). -/
def execLoadFrame (s : State) : Out := serve "LOAD_FRAME" replyLoadFrame s
/-- APPEND_FRAME (R247). -/
def execAppendFrame (s : State) : Out := serve "APPEND_FRAME" replyAppendFrame s
/-- RF_SEND (R248). -/
def execRfSend (s : State) : Out := serve "RF_SEND" replyRfSend s
/-- UNKNOWN (R249): `v` is the opcode byte, to which no rule looks further. -/
def execUnknown (_v : Byte) (s : State) : Out := serve "UNKNOWN" replyUnknown s

end Sys2Proof.Machine
end

