-- ==== Sys2Proof/Machine/Decoder.lean ====
section
/-! DEFINITION. The frame decoder's operations (41_decoder). Each is written once for either instance; the table's bare
operation acts on the instance whose cycle it is (log 3). The operand is the delivered byte; taking it from the stream
is the handshake's (10_state R41). -/

namespace Sys2Proof.Machine

/-- DEC.ESC on an instance (41_decoder R153). -/
def decEscOn (r : Role) (s : State) : Out :=
  let b := s.block r
  if b.decRun = true ∧ b.decEsc = false then
    .next (s.setBlock r { b with decEsc := escAfter b.decEsc Config.esc }.restartTimer)
  else notSelected "DEC.ESC"

/-- DEC.DATA on an instance (41_decoder R154). -/
def decDataOn (r : Role) (v : Byte) (s : State) : Out :=
  let b := s.block r
  if b.decRun = true ∧ b.decEsc = false ∧ v ≠ Config.esc then
    .next (s.setBlock r (b.append v).restartTimer)
  else notSelected "DEC.DATA"

/-- DEC.END on an instance (41_decoder R156). -/
def decEndOn (r : Role) (s : State) : Out :=
  let b := s.block r
  if b.decRun = true ∧ b.decEsc = true then
    .next (s.setBlock r
      { b with decEsc := escAfter b.decEsc Config.endMark, decRun := false, decRes := resAtEnd b.decErr }.restartTimer)
  else notSelected "DEC.END"

/-- DEC.LITESC on an instance (41_decoder R157). -/
def decLitescOn (r : Role) (s : State) : Out :=
  let b := s.block r
  if b.decRun = true ∧ b.decEsc = true then
    .next (s.setBlock r ({ b with decEsc := escAfter b.decEsc Config.esc }.append Config.esc).restartTimer)
  else notSelected "DEC.LITESC"

/-- DEC.BADESC on an instance (41_decoder R158). -/
def decBadescOn (r : Role) (v : Byte) (s : State) : Out :=
  let b := s.block r
  if b.decRun = true ∧ b.decEsc = true ∧ v ≠ Config.endMark ∧ v ≠ Config.esc then
    .next (s.setBlock r { b with decEsc := escAfter b.decEsc v, decErr := true }.restartTimer)
  else notSelected "DEC.BADESC"

/-- DEC.EOD on an instance (41_decoder R159): HOST role only, at the expiry of the inactivity timer (60_exceptions
R292). -/
def decEodOn (r : Role) (s : State) : Out :=
  let b := s.block r
  if r = .host ∧ b.decRun = true ∧ b.idleCnt = s.params.nIdle then
    .next (s.setBlock r { b with decRun := false, decRes := resAtEod b.decErr })
  else notSelected "DEC.EOD"

/-- Run a decoder operation on an instance. -/
def decoderRun (r : Role) (i : Instr) (s : State) : Out :=
  match i with
  | .decEsc => decEscOn r s
  | .decData v => decDataOn r v s
  | .decEnd => decEndOn r s
  | .decLitesc => decLitescOn r s
  | .decBadesc v => decBadescOn r v s
  | _ => notSelected "DEC"

/-- "run the decoder operation selected by 41_decoder.md rule R152". -/
def decoderOp (r : Role) (v : Byte) (s : State) : Out := decoderRun r (decodeStream (s.block r).decEsc v) s

/-- DEC.START (41_decoder R151). -/
def execDecStart (s : State) : Out := .next (s.setBlock s.turn (s.block s.turn).decStart)

/-- DEC.ESC (41_decoder R153). -/
def execDecEsc (s : State) : Out := decEscOn s.turn s

/-- DEC.DATA (41_decoder R154). -/
def execDecData (v : Byte) (s : State) : Out := decDataOn s.turn v s

/-- DEC.END (41_decoder R156). -/
def execDecEnd (s : State) : Out := decEndOn s.turn s

/-- DEC.LITESC (41_decoder R157). -/
def execDecLitesc (s : State) : Out := decLitescOn s.turn s

/-- DEC.BADESC (41_decoder R158). -/
def execDecBadesc (v : Byte) (s : State) : Out := decBadescOn s.turn v s

/-- DEC.EOD (41_decoder R159). -/
def execDecEod (s : State) : Out := decEodOn s.turn s

end Sys2Proof.Machine
end

