-- ==== Sys2Proof/Machine/Encoder.lean ====
section
/-! DEFINITION. The frame encoder's operations (40_encoder). Each is written once for either instance; the table's bare
operation acts on the instance whose cycle it is (log 3). -/

namespace Sys2Proof.Machine

/-- ENC.LIT on an instance (40_encoder R132). -/
def encLitOn (r : Role) (v : Byte) (s : State) : Out :=
  let b := s.block r
  if b.encRun = true ∧ b.encPh = .data ∧ b.encIdx < b.encN ∧ b.frameByte b.encIdx = some v ∧ v ≠ Config.esc then
    .next ((s.setBlock r { b with encIdx := b.encIdx + 1 }).emit r v)
  else notSelected "ENC.LIT"

/-- ENC.STUFF1 on an instance (40_encoder R133). -/
def encStuff1On (r : Role) (s : State) : Out :=
  let b := s.block r
  if b.encRun = true ∧ b.encPh = .data ∧ b.encIdx < b.encN ∧ b.frameByte b.encIdx = some Config.esc then
    .next ((s.setBlock r { b with encPh := .stuff2 }).emit r Config.esc)
  else notSelected "ENC.STUFF1"

/-- ENC.STUFF2 on an instance (40_encoder R134). -/
def encStuff2On (r : Role) (s : State) : Out :=
  let b := s.block r
  if b.encRun = true ∧ b.encPh = .stuff2 then
    .next ((s.setBlock r { b with encIdx := b.encIdx + 1, encPh := .data }).emit r Config.esc)
  else notSelected "ENC.STUFF2"

/-- ENC.TERM1 on an instance (40_encoder R135). -/
def encTerm1On (r : Role) (s : State) : Out :=
  let b := s.block r
  if b.encRun = true ∧ b.encPh = .data ∧ b.encIdx = b.encN then
    .next ((s.setBlock r { b with encPh := .term2 }).emit r Config.esc)
  else notSelected "ENC.TERM1"

/-- ENC.TERM2 on an instance (40_encoder R136). -/
def encTerm2On (r : Role) (s : State) : Out :=
  let b := s.block r
  if b.encRun = true ∧ b.encPh = .term2 then
    .next ((s.setBlock r { b with encPh := .done, encRun := false }).emit r Config.endMark)
  else notSelected "ENC.TERM2"

/-- Run an encoder operation on an instance. -/
def encoderRun (r : Role) (i : Instr) (s : State) : Out :=
  match i with
  | .encLit v => encLitOn r v s
  | .encStuff1 => encStuff1On r s
  | .encStuff2 => encStuff2On r s
  | .encTerm1 => encTerm1On r s
  | .encTerm2 => encTerm2On r s
  | _ => notSelected "ENC"

/-- "run the selected encoder operation" (40_encoder R138; 42_host_correlator R183, 43_device_responder R216). Reading
an unspecified `TXPAY` byte is a fault (10_state R45). -/
def encoderOp (r : Role) (s : State) : Out :=
  match (s.block r).encoderFetch with
  | none => .fault .unspecifiedByte
  | some f =>
    match decode f with
    | .ok i => encoderRun r i s
    | .error _ => notSelected "ENC"

/-- ENC.START (40_encoder R131): `enc_run` = 0 at that moment by construction. -/
def execEncStart (s : State) : Out :=
  if (s.block s.turn).encRun = false then .next (s.setBlock s.turn (s.block s.turn).encStart)
  else notSelected "ENC.START"

/-- ENC.LIT (40_encoder R132). -/
def execEncLit (v : Byte) (s : State) : Out := encLitOn s.turn v s

/-- ENC.STUFF1 (40_encoder R133). -/
def execEncStuff1 (s : State) : Out := encStuff1On s.turn s

/-- ENC.STUFF2 (40_encoder R134). -/
def execEncStuff2 (s : State) : Out := encStuff2On s.turn s

/-- ENC.TERM1 (40_encoder R135). -/
def execEncTerm1 (s : State) : Out := encTerm1On s.turn s

/-- ENC.TERM2 (40_encoder R136). -/
def execEncTerm2 (s : State) : Out := encTerm2On s.turn s

end Sys2Proof.Machine
end

