-- ==== Sys2Proof/Machine/Correlator.lean ====
section
/-! DEFINITION. The host-side correlator's operations (42_host_correlator). -/

namespace Sys2Proof.Machine

/-- The tests of HOST.VALIDATE on a decode that ended FRAME_OK (42_host_correlator R189), in their order. -/
def validateFrame (s : State) : Out :=
  let b := s.host
  if b.decLen < 2 then .next { s with host := b.raise .shortFrame }
  else
    match Memory.read b.rxbuf 0 with
    | none => .fault .unspecifiedByte
    | some id =>
      if id ≠ b.curId then .next { s with host := b.raise .desync }
      else
        match Memory.read b.rxbuf 1 with
        | none => .fault .unspecifiedByte
        | some st =>
          if st = 0x00 then .next { s with host := b.endCall .ok 0x00 }
          else .next { s with host := b.endCall .appStatus st }

/-- HOST.VALIDATE (42_host_correlator R189), after the decode of this call has ended. -/
def validateOp (s : State) : Out :=
  let b := s.host
  if b.trState = .hRecv ∧ b.decRun = false then
    match b.decRes with
    | .timeout => .next { s with host := b.raise .timeout }
    | .framingError => .next { s with host := b.raise .framingError }
    | .frameOk => validateFrame s
    | .noResult => notSelected "HOST.VALIDATE"
  else notSelected "HOST.VALIDATE"

/-- HOST.CALL (42_host_correlator R181). Outside H_IDLE the pulse is ignored (R192). An id of 0xFF and a payload length
above `CAP_TXPAY` are refused (93 U8, U9). -/
def execHostCall (id opcode : Byte) (plen : Nat) (s : State) : Out :=
  if s.host.trState ≠ .hIdle then .next s
  else if id = Config.esc then .refused .idSentinel
  else if s.params.capTxPay < plen then .refused .payloadTooLong
  else .next { s with host := s.host.beginCall id opcode plen }

/-- HOST.SEND (42_host_correlator R183). -/
def execHostSend (s : State) : Out :=
  if s.host.trState = .hSend ∧ s.host.encRun = true then encoderOp .host s else notSelected "HOST.SEND"

/-- HOST.CHFAIL_SEND, ChannelError while sending (42_host_correlator R184). -/
def execHostChfailSend (s : State) : Out :=
  if s.host.trState = .hSend then .next { s with host := s.host.raise .channelError }
  else notSelected "HOST.CHFAIL_SEND"

/-- HOST.ENTER_RECV (42_host_correlator R185): the terminator's last byte has been accepted. -/
def execHostEnterRecv (s : State) : Out :=
  if s.host.trState = .hSend ∧ s.host.encRun = false ∧ s.host.encPh = .done then
    .next { s with host := { s.host.decStart with trState := .hRecv } }
  else notSelected "HOST.ENTER_RECV"

/-- HOST.RECV (42_host_correlator R186). -/
def execHostRecv (v : Byte) (s : State) : Out :=
  if s.host.trState = .hRecv ∧ s.host.decRun = true then
    andThen (decoderOp .host v s) (fun t => if t.host.decRun = false then validateOp t else .next t)
  else notSelected "HOST.RECV"

/-- HOST.TIMEOUT (42_host_correlator R187). -/
def execHostTimeout (s : State) : Out :=
  if s.host.trState = .hRecv then andThen (decEodOn .host s) validateOp else notSelected "HOST.TIMEOUT"

/-- HOST.CHFAIL_RECV, ChannelError while receiving (42_host_correlator R188). -/
def execHostChfailRecv (s : State) : Out :=
  if s.host.trState = .hRecv then .next { s with host := s.host.raise .channelError }
  else notSelected "HOST.CHFAIL_RECV"

/-- HOST.VALIDATE (42_host_correlator R189). -/
def execHostValidate (s : State) : Out := validateOp s

end Sys2Proof.Machine
end

