-- ==== Sys2Proof/Machine/Responder.lean ====
section
/-! DEFINITION. The device-side responder loop's operations (43_device_responder). -/

namespace Sys2Proof.Machine

/-- DEV.DISCARD (43_device_responder R212). -/
def discardOp (s : State) : Out :=
  if s.device.trState = .dRecv ∧ s.device.decRun = false ∧ s.device.decRes = .framingError then
    .next { s with device := s.device.decStart }
  else notSelected "DEV.DISCARD"

/-- DEV.DISCARD_SHORT (43_device_responder R213). -/
def discardShortOp (s : State) : Out :=
  if s.device.trState = .dRecv ∧ s.device.decRun = false ∧ s.device.decRes = .frameOk ∧ s.device.decLen < 2 then
    .next { s with device := s.device.decStart }
  else notSelected "DEV.DISCARD_SHORT"

/-- DEV.DISPATCH (43_device_responder R214). -/
def dispatchOp (s : State) : Out :=
  if s.device.trState = .dRecv ∧ s.device.decRun = false ∧ s.device.decRes = .frameOk ∧ 2 ≤ s.device.decLen then
    match Memory.read s.device.rxbuf 0 with
    | none => .fault .unspecifiedByte
    | some id => .next { s with device := { s.device with curId := id, trState := .dDispatch } }
  else notSelected "DEV.DISPATCH"

/-- "go to rule R212, R213 or R214 by dec_res and dec_len" (43_device_responder R211). -/
def afterDecode (s : State) : Out :=
  match s.device.decRes with
  | .framingError => discardOp s
  | .frameOk => if s.device.decLen < 2 then discardShortOp s else dispatchOp s
  | .timeout => notSelected "DEV.RECV"
  | .noResult => notSelected "DEV.RECV"

/-- DEV.RECV (43_device_responder R211). -/
def execDevRecv (v : Byte) (s : State) : Out :=
  if s.device.trState = .dRecv ∧ s.device.decRun = true then
    andThen (decoderOp .device v s) (fun t => if t.device.decRun = false then afterDecode t else .next t)
  else notSelected "DEV.RECV"

/-- DEV.DISCARD (43_device_responder R212). -/
def execDevDiscard (s : State) : Out := discardOp s

/-- DEV.DISCARD_SHORT (43_device_responder R213). -/
def execDevDiscardShort (s : State) : Out := discardShortOp s

/-- DEV.DISPATCH (43_device_responder R214). -/
def execDevDispatch (s : State) : Out := dispatchOp s

/-- DEV.RESPOND (43_device_responder R215). A payload length above 254 is refused (93 U9). -/
def execDevRespond (status : Byte) (plen : Nat) (s : State) : Out :=
  if s.device.trState = .dDispatch then
    if Config.devCapTx < plen then .refused .payloadTooLong
    else
      .next { s with
        device :=
          { Block.encStart { s.device with hdr0 := s.device.curId, hdr1 := status, txPlen := plen }
            with trState := .dSend } }
  else notSelected "DEV.RESPOND"

/-- DEV.SEND (43_device_responder R216). -/
def execDevSend (s : State) : Out :=
  if s.device.trState = .dSend ∧ s.device.encRun = true then
    andThen (encoderOp .device s) (fun t =>
      if t.device.encRun = false then .next { t with device := { t.device.decStart with trState := .dRecv } }
      else .next t)
  else notSelected "DEV.SEND"

end Sys2Proof.Machine
end

