-- ==== Sys2Proof/Machine/Dispatch.lean ====
section
/-! DEFINITION. One arm per row of spec/opcode_table.json. -/

namespace Sys2Proof.Machine

/-- The meaning of an operation. -/
def exec (i : Instr) (s : State) : Host.Outcome State Fault Refusal :=
  match i with
  -- stream/decoder
  | .decEnd => Sys2Proof.Machine.execDecEnd s
  | .decLitesc => Sys2Proof.Machine.execDecLitesc s
  | .decBadesc b => Sys2Proof.Machine.execDecBadesc b s
  | .decEsc => Sys2Proof.Machine.execDecEsc s
  | .decData b => Sys2Proof.Machine.execDecData b s
  -- stream/encoder
  | .encLit b => Sys2Proof.Machine.execEncLit b s
  | .encStuff1 => Sys2Proof.Machine.execEncStuff1 s
  | .encStuff2 => Sys2Proof.Machine.execEncStuff2 s
  | .encTerm1 => Sys2Proof.Machine.execEncTerm1 s
  | .encTerm2 => Sys2Proof.Machine.execEncTerm2 s
  -- frame/opcode
  | .nop => Sys2Proof.Machine.execNop s
  | .getDevType => Sys2Proof.Machine.execGetDevType s
  | .getDevRev => Sys2Proof.Machine.execGetDevRev s
  | .getOds => Sys2Proof.Machine.execGetOds s
  | .setOds => Sys2Proof.Machine.execSetOds s
  | .getPa => Sys2Proof.Machine.execGetPa s
  | .setPa => Sys2Proof.Machine.execSetPa s
  | .getFreq => Sys2Proof.Machine.execGetFreq s
  | .setFreq => Sys2Proof.Machine.execSetFreq s
  | .getFdev => Sys2Proof.Machine.execGetFdev s
  | .setFdev => Sys2Proof.Machine.execSetFdev s
  | .getEnc => Sys2Proof.Machine.execGetEnc s
  | .setEnc => Sys2Proof.Machine.execSetEnc s
  | .loadFrame => Sys2Proof.Machine.execLoadFrame s
  | .appendFrame => Sys2Proof.Machine.execAppendFrame s
  | .rfSend => Sys2Proof.Machine.execRfSend s
  | .unknown v => Sys2Proof.Machine.execUnknown v s
  -- event/encoder and event/decoder
  | .encStart => Sys2Proof.Machine.execEncStart s
  | .decStart => Sys2Proof.Machine.execDecStart s
  | .decEod => Sys2Proof.Machine.execDecEod s
  -- event/host
  | .hostCall id opcode plen => Sys2Proof.Machine.execHostCall id opcode plen s
  | .hostSend => Sys2Proof.Machine.execHostSend s
  | .hostChfailSend => Sys2Proof.Machine.execHostChfailSend s
  | .hostEnterRecv => Sys2Proof.Machine.execHostEnterRecv s
  | .hostRecv b => Sys2Proof.Machine.execHostRecv b s
  | .hostTimeout => Sys2Proof.Machine.execHostTimeout s
  | .hostChfailRecv => Sys2Proof.Machine.execHostChfailRecv s
  | .hostValidate => Sys2Proof.Machine.execHostValidate s
  -- event/device
  | .devRecv b => Sys2Proof.Machine.execDevRecv b s
  | .devDiscard => Sys2Proof.Machine.execDevDiscard s
  | .devDiscardShort => Sys2Proof.Machine.execDevDiscardShort s
  | .devDispatch => Sys2Proof.Machine.execDevDispatch s
  | .devRespond status plen => Sys2Proof.Machine.execDevRespond status plen s
  | .devSend => Sys2Proof.Machine.execDevSend s

end Sys2Proof.Machine
end

