-- ==== Sys2Proof/Machine/Select.lean ====
section
/-! DEFINITION. Which operation a clock cycle selects, and what the cycle does around it: the handshakes, the tick
count, the port writes, reset. -/

namespace Sys2Proof.Machine

/-- The byte the channel delivers to an instance in this cycle (10_state R41): offered and taken. -/
def delivered (s : State) (r : Role) (rxValid chFail rst : Bool) : Option Byte :=
  if rxValid = true ∧ (s.block r).rxReady chFail rst = true then (s.stream (otherRole r)).head? else none

/-- The transport operation of a HOST cycle without reset (42_host_correlator R180), in the priority of 60_exceptions
R282: `ch_fail`, then a byte, then the timer. A `start` outside H_IDLE selects nothing (42_host_correlator R192), nor
does `ch_fail` outside a call (92 D3). -/
def hostSelect (i : HostIn) (s : State) : Option Instr :=
  match s.host.trState with
  | .hIdle => i.start.map (fun p => Instr.hostCall p.1 p.2.1 p.2.2)
  | .hSend =>
    if i.chFail then some .hostChfailSend
    else if s.host.txValid i.chFail i.rst && i.txReady then some .hostSend
    else none
  | .hRecv =>
    if i.chFail then some .hostChfailRecv
    else
      match delivered s .host i.rxValid i.chFail i.rst with
      | some v => some (.hostRecv v)
      | none =>
        if i.tick = true ∧ s.host.decRun = true ∧ s.host.idleCnt + 1 = s.params.nIdle then some .hostTimeout else none
  | .dRecv => none
  | .dDispatch => none
  | .dSend => none

/-- The acknowledge pulse of a DEVICE cycle as its two values (10_state R43). -/
def ackPulse (i : DevIn) (s : State) : Option (Byte × Nat) :=
  match i.ack with
  | .low => none
  | .own => s.disp.answer
  | .port st n => some (st, n)

/-- The transport operation of a DEVICE cycle without reset (43_device_responder R210). Outside D_DISPATCH the
acknowledge pulse is ignored (10_state R43). -/
def deviceSelect (i : DevIn) (s : State) : Option Instr :=
  match s.device.trState with
  | .dRecv => (delivered s .device i.rxValid false i.rst).map Instr.devRecv
  | .dDispatch => (ackPulse i s).map (fun p => Instr.devRespond p.1 p.2)
  | .dSend => if s.device.txValid false i.rst && i.txReady then some .devSend else none
  | .hIdle => none
  | .hSend => none
  | .hRecv => none

/-- The opcode operation the dispatcher selects for the waiting command (45_dispatcher_interface R230): by frame byte 1,
when a command waits and has not been answered. -/
def commandSelect (s : State) : Option Fetch :=
  if s.device.dispReq = true ∧ s.disp.answer = none then s.device.cmdOpcode.map Fetch.opcode else none

/-- The client's write to `TXPAY` in a HOST cycle (10_state R42): taken while `busy` = 0. -/
def clientWrite (i : HostIn) (s : State) : State :=
  { s with host := s.host.portWrite (!s.host.busy) s.params.capTxPay i.pw }

/-- A dispatcher's write to `TXPAY` in a DEVICE cycle (10_state R43): taken while `disp_req` = 1. -/
def dispatcherWrite (i : DevIn) (s : State) : State :=
  { s with device := s.device.portWrite s.device.dispReq Config.devCapTx i.pw }

/-- The tick count of a HOST cycle in which no byte is delivered (60_exceptions R291). -/
def hostTick (i : HostIn) (s : State) : State :=
  if i.tick = true ∧ s.host.trState = .hRecv ∧ i.chFail = false then
    { s with host := s.host.countTick s.params.nIdle }
  else s

/-- What a HOST cycle does before its operation: take the delivered byte from the stream, or count the tick that
expires the timer (60_exceptions R292). -/
def hostBefore (op : Instr) (s : State) : State :=
  match op with
  | .hostRecv _ => s.takeFront .host
  | .hostTimeout => { s with host := s.host.countTick s.params.nIdle }
  | _ => s

/-- What a DEVICE cycle does before its operation: take the delivered byte from the stream, or withdraw the answer the
pulse delivers. -/
def deviceBefore (op : Instr) (s : State) : State :=
  match op with
  | .devRecv _ => s.takeFront .device
  | .devRespond _ _ => { s with disp := { s.disp with answer := none } }
  | _ => s

/-- `rst` of the HOST instance (10_state R44): it does not reach outside the block (70_reset_and_hazards R313). -/
def resetHost (s : State) : State := { s with host := Block.reset .host }

/-- `rst` of the DEVICE instance (10_state R44). The command it was serving is gone, so a held answer meets no
`disp_req` (10_state R43; log 19). -/
def resetDevice (s : State) : State :=
  { s with device := Block.reset .device, disp := { s.disp with answer := none } }

/-- The dispatcher's own start-up (45_dispatcher_interface R232, 70_reset_and_hazards R313; log 30). DESIGN CHOICE
(log 39): a command that still waits loses its answer with it and is served again, from the start values. -/
def startDispatcher (s : State) : State := { s with disp := Dispatcher.start }

/-- The channel loses the byte at place `k` of the direction fed by `r` (20_memory R72). -/
def loseByte (r : Role) (k : Nat) (s : State) : State := s.setStream r ((s.stream r).eraseIdx k)

/-- The channel changes the byte at place `k` of the direction fed by `r` (20_memory R72). -/
def alterByte (r : Role) (k : Nat) (v : Byte) (s : State) : State := s.setStream r ((s.stream r).set k v)

/-! ### Placing a table word where the next step fetches it (log 6) -/

/-- How many zero payload bytes are placed behind an opcode (45_dispatcher_interface R233 to R248). For RF_SEND, whose
length is open, room for the cookie and one byte. -/
def operandBytes (v : Byte) : Nat :=
  match decodeOpcode v with
  | .setOds => 9
  | .setPa => 12
  | .setFreq => 4
  | .setFdev => 1
  | .setEnc => 1
  | .rfSend => 5
  | _ => 0

/-- A delivered byte and `dec_esc`: the DEVICE instance waits for a byte, and its channel offers this one. -/
def placeStream (s : State) (w : BitVec 9) : State :=
  { s with
    device := { s.device with trState := .dRecv, decRun := true, decEsc := w.getLsbD 8 }
    hd := w.setWidth 8 :: s.hd
    script := .device { rxValid := true } :: s.script }

/-- An encoder selection: the DEVICE instance is sending and the channel accepts. -/
def placeEmit (s : State) (ph : EncPhase) (last : Bool) (b : Byte) : State :=
  { s with
    device :=
      { s.device with
        trState := .dSend, decRun := false, encRun := true, encPh := ph, hdr0 := b,
        encN := 2, encIdx := if last then 2 else 0 }
    script := .device { txReady := true } :: s.script }

/-- A command: the DEVICE instance has it waiting, with a payload of zeros, and the dispatcher serves it. -/
def placeOpcode (s : State) (v : Byte) : State :=
  { s with
    device :=
      { s.device with
        trState := .dDispatch, decRun := false, decLen := 2 + operandBytes v,
        rxbuf := Memory.writeList s.device.rxbuf 0 (0 :: v :: List.replicate (operandBytes v) 0) }
    disp := { s.disp with answer := none }
    script := .dispatcher :: s.script }

/-- Place what a table word stands for; a word that stands for nothing changes nothing. -/
def placeWord (s : State) (nbits w : Nat) : State :=
  match tableFetch nbits w with
  | .ok (.stream x) => placeStream s x
  | .ok (.emit ph last b) => placeEmit s ph last b
  | .ok (.opcode v) => placeOpcode s v
  | .error _ => s

end Sys2Proof.Machine
end

