-- ==== Sys2Proof/Machine/Cycle.lean ====
section
/-! DEFINITION. One clock cycle of an instance, and one service of the dispatcher. -/

namespace Sys2Proof.Machine

/-- After HOST.SEND the encoder may have finished: then HOST.ENTER_RECV follows at the same event
(42_host_correlator R185). -/
def hostAfter (op : Instr) (s : State) : Out :=
  match op with
  | .hostSend => if s.host.encRun = false then exec .hostEnterRecv s else .next s
  | _ => .next s

/-- One clock cycle of the HOST instance. Reset comes before everything (10_state R44). -/
def hostCycle (i : HostIn) (s : State) : Out :=
  if i.rst then .next (resetHost s)
  else
    match s.host.readFault i.rd with
    | some f => .fault f
    | none =>
      match hostSelect i s with
      | none => .next (hostTick i (clientWrite i s))
      | some op => andThen (exec op (hostBefore op (clientWrite i s))) (hostAfter op)

/-- One clock cycle of the DEVICE instance. Reset comes before everything (10_state R44). -/
def deviceCycle (i : DevIn) (s : State) : Out :=
  if i.rst then .next (resetDevice s)
  else
    match s.device.readFault i.rd with
    | some f => .fault f
    | none =>
      match deviceSelect i s with
      | none => .next (dispatcherWrite i s)
      | some op => exec op (deviceBefore op (dispatcherWrite i s))

/-- The dispatcher serves the waiting command, if there is one that it has not answered (45_dispatcher_interface R230).
A start-up since then makes that the same command again (DESIGN CHOICE, log 39). -/
def dispatcherMove (s : State) : Out :=
  if s.device.dispReq = true ∧ s.disp.answer = none then
    match commandSelect s with
    | none => .fault .unspecifiedByte
    | some f =>
      match decode f with
      | .ok i => exec i s
      | .error _ => notSelected "DISPATCH"
  else .next s

/-- One move of the script. -/
def runMove (m : Move) (s : State) : Out :=
  match m with
  | .host i => hostCycle i { s with turn := .host }
  | .device i => deviceCycle i { s with turn := .device }
  | .dispatcher => dispatcherMove s
  | .dispatcherStart => .next (startDispatcher s)
  | .lose r k => .next (loseByte r k s)
  | .alter r k v => .next (alterByte r k v s)

end Sys2Proof.Machine
end

