-- ==== Sys2Proof/Machine/Step.lean ====
section
/-! DEFINITION. One step: the next move of the script. -/

namespace Sys2Proof.Machine

/-- One step takes the next move of the script; with none left nothing happens (log 2). -/
def step (s : State) : Host.Outcome State Fault Refusal :=
  match s.script with
  | [] => .next s
  | m :: rest => runMove m { s with script := rest }

/-- `s` with a table word placed so that the very next step runs it (log 6). -/
def State.withFetchWord (s : State) (nbits w : Nat) : State := placeWord s nbits w

end Sys2Proof.Machine
end

