-- ==== Sys2Proof/Machine/Functions.lean ====
section
/-! DEFINITION. The spec's functions on whole sequences, for a reader who does not want the per-byte steps: Encode,
Decode, HostCall, DevServe. The statements relate the units to them. -/

namespace Sys2Proof.Machine

/-- `Encode(F)` (40_encoder R130). -/
def encodeFrame : List Byte → List Byte
  | [] => [Config.esc, Config.endMark]
  | b :: t => if b = Config.esc then Config.esc :: Config.esc :: encodeFrame t else b :: encodeFrame t

/-- An event at the decoder (41_decoder R150): a byte, or the end of data. -/
inductive DecEvent where
  | byte (b : Byte)
  | eod
  deriving DecidableEq, Repr

/-- What a decode returns (41_decoder R150, R161). -/
inductive Decoded where
  | frame (f : List Byte)
  | framingError
  | timeout
  deriving DecidableEq, Repr

/-- What a decode carries (41_decoder R150): the escape-pending flag, the error flag, the output. -/
structure DecCarry where
  esc : Bool
  err : Bool
  out : List Byte
  deriving DecidableEq, Repr

/-- The carry a decode starts with. -/
def DecCarry.start : DecCarry := ⟨false, false, []⟩

/-- `Append(v)` of 41_decoder R150. -/
def DecCarry.append (cap : Nat) (c : DecCarry) (v : Byte) : DecCarry :=
  if c.err then c
  else if c.out.length = cap then { c with err := true }
  else { c with out := c.out ++ [v] }

/-- One byte that does not end the decode, or the result (41_decoder R150). -/
def DecCarry.onByte (cap : Nat) (c : DecCarry) (b : Byte) : DecCarry ⊕ Decoded :=
  if c.esc then
    if b = Config.endMark then .inr (if c.err then .framingError else .frame c.out)
    else if b = Config.esc then .inl (DecCarry.append cap { c with esc := false } b)
    else .inl { c with esc := false, err := true }
  else if b = Config.esc then .inl { c with esc := true }
  else .inl (DecCarry.append cap c b)

/-- `Decode(cap, E)` from a given carry (41_decoder R150): the result and the unconsumed rest, or nothing while more
events are needed. -/
def decodeFrom (cap : Nat) (c : DecCarry) : List DecEvent → Option (Decoded × List DecEvent)
  | [] => none
  | .eod :: rest => some (if c.err then .framingError else .timeout, rest)
  | .byte b :: rest =>
    match DecCarry.onByte cap c b with
    | .inr d => some (d, rest)
    | .inl c' => decodeFrom cap c' rest

/-- `Decode(cap, E)` (41_decoder R150). -/
def decodeEvents (cap : Nat) (e : List DecEvent) : Option (Decoded × List DecEvent) := decodeFrom cap DecCarry.start e

/-- `Decode` on plain bytes: no end of data comes (43_device_responder R221). -/
def decodeBytes (cap : Nat) (e : List Byte) : Option (Decoded × List DecEvent) := decodeEvents cap (e.map DecEvent.byte)

/-- How a call classifies a decode (42_host_correlator R195): the result, the status byte, and the response payload. -/
def classify (id : Byte) : Decoded → CallResult × Byte × List Byte
  | .timeout => (.timeout, 0x00, [])
  | .framingError => (.framingError, 0x00, [])
  | .frame [] => (.shortFrame, 0x00, [])
  | .frame [_] => (.shortFrame, 0x00, [])
  | .frame (i :: st :: p) =>
    if i ≠ id then (.desync, 0x00, [])
    else if st = 0x00 then (.ok, st, p)
    else (.appStatus, st, p)

/-- An event at the receive side of a call (42_host_correlator R195): a decoder event, or a channel failure. -/
inductive CallEvent where
  | dec (e : DecEvent)
  | fail
  deriving DecidableEq, Repr

/-- The receive phase of `HostCall` from a given carry (42_host_correlator R195): a failure before the decode ends is
ChannelError. Nothing while the call has not ended. -/
def receiveFrom (cap : Nat) (id : Byte) (c : DecCarry) : List CallEvent → Option (CallResult × Byte × List Byte)
  | [] => none
  | .fail :: _ => some (.channelError, 0x00, [])
  | .dec .eod :: _ => some (classify id (if c.err then .framingError else .timeout))
  | .dec (.byte b) :: rest =>
    match DecCarry.onByte cap c b with
    | .inr d => some (classify id d)
    | .inl c' => receiveFrom cap id c' rest

/-- `HostCall(op, P, id, Ein)` (42_host_correlator R195): the bytes written and, if the call ends, its outcome.
`failAt = some k` is a channel failure after `k` accepted bytes of the send. -/
def hostCallFn (op : Byte) (payload : List Byte) (id : Byte) (failAt : Option Nat) (ein : List CallEvent) :
    List Byte × Option (CallResult × Byte × List Byte) :=
  let w := encodeFrame (id :: op :: payload)
  match failAt with
  | some k =>
    if k < w.length then (w.take k, some (.channelError, 0x00, []))
    else (w, receiveFrom Config.capRx id DecCarry.start ein)
  | none => (w, receiveFrom Config.capRx id DecCarry.start ein)

/-- `Dispatch(op, P)` of the dispatcher of 45_dispatcher_interface, by opcode byte. -/
def dispatchReply (op : Byte) (d : Dispatcher) (p : List Byte) (c : Bool) : Reply :=
  match decodeOpcode op with
  | .nop => replyNop d p c
  | .getDevType => replyGetDevType d p c
  | .getDevRev => replyGetDevRev d p c
  | .getOds => replyGetOds d p c
  | .setOds => replySetOds d p c
  | .getPa => replyGetPa d p c
  | .setPa => replySetPa d p c
  | .getFreq => replyGetFreq d p c
  | .setFreq => replySetFreq d p c
  | .getFdev => replyGetFdev d p c
  | .setFdev => replySetFdev d p c
  | .getEnc => replyGetEnc d p c
  | .setEnc => replySetEnc d p c
  | .loadFrame => replyLoadFrame d p c
  | .appendFrame => replyAppendFrame d p c
  | .rfSend => replyRfSend d p c
  | _ => replyUnknown d p c

/-- `DevServe(Ein)` with the dispatcher of 45_dispatcher_interface (43_device_responder R221), for at most `fuel`
frames: the bytes written and the resident state. `n` numbers the commands (log 12). -/
def devServe : Nat → Nat → Dispatcher → List DecEvent → List Byte × Dispatcher
  | 0, _, d, _ => ([], d)
  | fuel + 1, n, d, e =>
    match decodeEvents Config.capRx e with
    | none => ([], d)
    | some (.frame (id :: op :: p), rest) =>
      let r := dispatchReply op d p (Config.freeChoice n)
      let (w, d') := devServe fuel (n + 1) r.disp rest
      (encodeFrame (id :: r.status :: r.payload) ++ w, d')
    | some (_, rest) => devServe fuel n d rest

/-- The frame an instance is encoding, as a list (40_encoder R137), if every `TXPAY` byte of it has been written. -/
def Block.txFrame (b : Block) : Option (List Byte) :=
  (Memory.readRange b.txpay 0 b.txPlen).map (fun p => b.hdr0 :: b.hdr1 :: p)

/-! ### One byte of an encode, of a decode, and the end of a decode, as relations on one instance -/

/-- What an instance that is encoding sends next and what its registers become once the byte is accepted: the table of
40_encoder R138 with the writes of R132 to R136. `none` if no encode runs or the frame byte has no value. -/
def Block.sendOnce (b : Block) : Option (Byte × Block) :=
  match b.encPh with
  | .data =>
    if b.encIdx = b.encN then some (0xFF, { b with encPh := .term2 })
    else
      match b.frameByte b.encIdx with
      | none => none
      | some v =>
        if v = 0xFF then some (0xFF, { b with encPh := .stuff2 })
        else some (v, { b with encIdx := b.encIdx + 1 })
  | .stuff2 => some (0xFF, { b with encIdx := b.encIdx + 1, encPh := .data })
  | .term2 => some (0xAF, { b with encPh := .done, encRun := false })
  | .done => none

/-- What a delivered byte does to an instance that is decoding: the table of 41_decoder R152 with the writes of R153 to
R158. -/
def Block.recvOnce (b : Block) (v : Byte) : Block :=
  if b.decEsc then
    if v = 0xAF then
      { b with decEsc := false, decRun := false, idleCnt := 0,
               decRes := if b.decErr then .framingError else .frameOk }
    else if v = 0xFF then { b.append 0xFF with decEsc := false, idleCnt := 0 }
    else { b with decEsc := false, decErr := true, idleCnt := 0 }
  else if v = 0xFF then { b with decEsc := true, idleCnt := 0 }
  else { b.append v with idleCnt := 0 }

/-- The result of a call and its status byte, from a decode that has ended: the tests of 42_host_correlator R189 in
their order. `none` if no decode has ended or a byte that is looked at has no value. -/
def Block.verdict (b : Block) : Option (CallResult × Byte) :=
  match b.decRes with
  | .noResult => none
  | .timeout => some (.timeout, 0x00)
  | .framingError => some (.framingError, 0x00)
  | .frameOk =>
    if b.decLen < 2 then some (.shortFrame, 0x00)
    else
      match Memory.read b.rxbuf 0, Memory.read b.rxbuf 1 with
      | some id, some st =>
        if id ≠ b.curId then some (.desync, 0x00)
        else if st = 0x00 then some (.ok, 0x00)
        else some (.appStatus, st)
      | some id, none => if id ≠ b.curId then some (.desync, 0x00) else none
      | none, _ => none

/-- The registers of a HOST instance after a call has ended so (42_host_correlator R189). -/
def Block.ended (b : Block) (res : CallResult) (status : Byte) : Block :=
  { b with result := res, respStatus := status, busy := false, done := true, trState := .hIdle }

/-- A decoder that starts again, its instance otherwise unchanged (41_decoder R151). -/
def Block.decodeAfresh (b : Block) : Block :=
  { b with decEsc := false, decErr := false, decLen := 0, decRes := .noResult, decRun := true, idleCnt := 0 }

/-- What a DEVICE instance does when a decode ends, by its outcome (43_device_responder R212, R213, R214). `none` if no
decode has ended or the id has no value. -/
def Block.served (b : Block) : Option Block :=
  match b.decRes with
  | .framingError => some b.decodeAfresh
  | .frameOk =>
    if b.decLen < 2 then some b.decodeAfresh
    else (Memory.read b.rxbuf 0).map (fun id => { b with curId := id, trState := .dDispatch })
  | .timeout => none
  | .noResult => none

/-! ### The dispatcher's answer, as a relation on the system -/

/-- A command with payload `p` waits at the dispatcher port and has not been answered. -/
def waiting (s : State) (p : List Byte) : Prop :=
  s.device.trState = .dDispatch ∧ s.disp.answer = none ∧ s.device.payload = some p

/-- The system once the dispatcher has computed `r`: its resident state, its answer held for the pulse (log 19), the
payload in `TXPAY`, the transmission handed over, the next free choice (log 12). -/
def answered (s : State) (r : Reply) : State :=
  { s with
    disp := { r.disp with answer := some (r.status, r.payload.length) }
    device := { s.device with txpay := Memory.writeList s.device.txpay 0 r.payload }
    radio := s.radio ++ r.job.toList
    freeCtr := s.freeCtr + 1 }

/-! ### The moves that stand for the events of a call -/

/-- The HOST cycles that stand for one event of the receive side: a byte delivered, `N_IDLE` ticks without one, a
channel failure (60_exceptions R271, R292). -/
def callMoves (nIdle : Nat) : CallEvent → List Move
  | .dec (.byte _) => [.host { rxValid := true }]
  | .dec .eod => List.replicate nIdle (.host { tick := true })
  | .fail => [.host { chFail := true }]

/-- The bytes among the events of the receive side, in order. -/
def eventBytes (e : List CallEvent) : List Byte :=
  e.filterMap (fun x => match x with | .dec (.byte b) => some b | .dec .eod => none | .fail => none)

end Sys2Proof.Machine
end

