-- ==== Sys2Proof/Safety.lean ====
section
/-! DEFINITION. What holds in every reachable state of the system, and what its surroundings must do for no step to
stop. -/

namespace Sys2Proof.Machine

/-- A buffer in canonical form with no index at or above its capacity (20_memory R60). -/
def bufferOk (cap : Nat) (m : Memory) : Prop := Memory.wf m ∧ ∀ e ∈ m, e.1 < cap

/-- What holds of an instance in either role: buffers canonical and within capacity; `dec_len` at most `CAP_RX` and
every decoded byte there to be read (10_state R26); lengths and indices within bounds (10_state R22, R46); the encoder
between ENC.START and its end (10_state R23, 40_encoder R138). -/
def blockOk (cap : Nat) (b : Block) : Prop :=
  bufferOk cap b.txpay ∧ bufferOk Config.capRx b.rxbuf ∧ b.decLen ≤ Config.capRx ∧
  (∀ a, a < b.decLen → (Memory.read b.rxbuf a).isSome) ∧
  b.txPlen ≤ cap ∧ b.encIdx ≤ b.encN ∧ b.encN ≤ 2 + cap ∧
  (b.encRun = true → b.encN = 2 + b.txPlen ∧ b.encPh ≠ .done) ∧
  (b.encPh = .stuff2 → b.encIdx < b.encN) ∧
  (b.encPh = .term2 → b.encIdx = b.encN)

/-- The sequencing of the HOST instance (42_host_correlator R180, 10_state R30, R31, R32): only the unit its state calls
for runs; `busy` and `done` say whether a call is in flight; the id is never 0xFF. -/
def hostOk (p : Params) (b : Block) : Prop :=
  ((b.trState = .hIdle ∧ b.encRun = false ∧ b.decRun = false ∧ b.busy = false) ∨
   (b.trState = .hSend ∧ b.encRun = true ∧ b.decRun = false ∧ b.busy = true ∧ b.done = false) ∨
   (b.trState = .hRecv ∧ b.encRun = false ∧ b.decRun = true ∧ b.busy = true ∧ b.done = false)) ∧
  (b.done = true ↔ b.result ≠ .noResult) ∧
  (b.result ≠ .appStatus → b.respStatus = 0x00) ∧
  b.idleCnt ≤ p.nIdle ∧ b.curId ≠ Config.esc

/-- The sequencing of the DEVICE instance (43_device_responder R210, R218): only the unit its state calls for runs, a
command that waits has its two header bytes, and the registers of the HOST role stay at reset (log 33). -/
def deviceOk (b : Block) : Prop :=
  ((b.trState = .dRecv ∧ b.encRun = false ∧ b.decRun = true ∧ b.decRes = .noResult) ∨
   (b.trState = .dDispatch ∧ b.encRun = false ∧ b.decRun = false ∧ 2 ≤ b.decLen ∧
     Memory.read b.rxbuf 0 = some b.curId) ∨
   (b.trState = .dSend ∧ b.encRun = true ∧ b.decRun = false ∧ b.hdr0 = b.curId)) ∧
  b.idleCnt = 0 ∧ b.busy = false ∧ b.done = false ∧ b.result = .noResult ∧ b.respStatus = 0x00

/-- The resident state (45_dispatcher_interface R232, R252, R255): a legal encoding, a Frame Buffer within its
capacity, the identity constants, and an answer the block can carry. -/
def dispatcherOk (d : Dispatcher) : Prop :=
  d.enc.toNat ≤ encodingMax ∧ d.frameBuf.length ≤ Config.frameBufCap ∧
  d.devType = Config.deviceType ∧ d.devRev = Config.deviceRevision ∧
  (∀ st n, d.answer = some (st, n) → n ≤ Config.devCapTx)

/-- The invariant of the system. -/
def Inv (s : State) : Prop :=
  blockOk s.params.capTxPay s.host ∧ hostOk s.params s.host ∧
  blockOk Config.devCapTx s.device ∧ deviceOk s.device ∧ dispatcherOk s.disp

/-- Every payload byte of a frame that is being sent has been written (10_state R22, R45). -/
def sendReady (b : Block) : Prop := b.encRun = true → ∀ k, k < b.txPlen → (Memory.read b.txpay k).isSome

/-- The invariant of a system in which nothing is sent, or held to be sent, that has not been written. -/
def SafeInv (s : State) : Prop :=
  Inv s ∧ sendReady s.host ∧ sendReady s.device ∧
  (∀ st n, s.disp.answer = some (st, n) → ∀ k, k < n → (Memory.read s.device.txpay k).isSome)

/-- A read through `rr_addr` of a byte that exists and has been written (20_memory R74). -/
def readOk (b : Block) (rd : Option Nat) : Prop :=
  ∀ a, rd = some a → a < Config.capRx ∧ (Memory.read b.rxbuf a).isSome

/-- The duties of the surroundings in one move: reads only of written bytes; a call with an id that is not 0xFF and a
written payload that fits (93 U8, U9); an acknowledge pulse with a written payload that fits (45_dispatcher_interface
R255). Outside H_IDLE and D_DISPATCH a pulse is ignored, so nothing is asked of it. -/
def safeMove (s : State) : Move → Prop
  | .host i =>
    readOk s.host i.rd ∧
    (s.host.trState = .hIdle → ∀ id op n, i.start = some (id, op, n) →
      id ≠ Config.esc ∧ n ≤ s.params.capTxPay ∧ ∀ k, k < n → (Memory.read s.host.txpay k).isSome)
  | .device i =>
    readOk s.device i.rd ∧
    (s.device.trState = .dDispatch → ∀ st n, i.ack = .port st n →
      n ≤ Config.devCapTx ∧ ∀ k, k < n → (Memory.read s.device.txpay k).isSome)
  | .dispatcher => True
  | .dispatcherStart => True
  | .lose _ _ => True
  | .alter _ _ _ => True

end Sys2Proof.Machine
end

