-- ==== Sys2Proof/Certificates/Slice0/Obligations.lean ====
section
/-! DEFINITION. The statements for the provers. A bare encoder or decoder operation acts on the instance whose turn it
is; `b` is that instance's registers. Each result is the whole next state, so it is also the frame: what the equation
does not name is unchanged. -/

open Sys2Proof Sys2Proof.Machine

/-! ### Selection and encoding -/

/-- 30_encoding R106, R98, R90: words written out bit by bit select the operations they stand for. R106 gives the
patterns and tells the groups apart by format: that a bare 8-bit word such as 0x00 is read as an opcode (NOP, not ENC.LIT
0x00), and a 16-bit word as the 9-bit pattern, is the model's choice (log 5). -/
def Obligations.WrittenWordsDecode : Prop :=
  decodeTableWord 16 0b110101111 = some .decEnd ∧
  decodeTableWord 16 0b111111111 = some .decLitesc ∧
  decodeTableWord 16 0b100000001 = some (.decBadesc 0x01) ∧
  decodeTableWord 16 0b011111111 = some .decEsc ∧
  decodeTableWord 16 0b010101111 = some (.decData 0xAF) ∧
  decodeTableWord 8 0b00000000 = some .nop ∧
  decodeTableWord 8 0b00001011 = some .setOds ∧
  decodeTableWord 8 0b00010101 = some .appendFrame ∧
  decodeTableWord 8 0b00110011 = some .rfSend ∧
  decodeTableWord 8 0b01111111 = some (.unknown 0x7F)

/-- Every row with a bit pattern has an encoding, and decoding it gives the operation back with every operand
(30_encoding R106). -/
def Obligations.DecodeOfEncode : Prop :=
  ∀ i : Instr, i.wellFormed = true →
    (i.group ≠ .event → (encode i).isSome = true) ∧
    (∀ f, encode i = some f → decode f = .ok i)

/-- The other direction for the two groups whose pattern is the whole selection (41_decoder R152,
45_dispatcher_interface R249): every word decodes, to an operation that is well formed and encodes to the same word. -/
def Obligations.EncodeOfDecode : Prop :=
  (∀ w : BitVec 9, ∃ i : Instr, decode (.stream w) = .ok i ∧
    i.wellFormed = true ∧ i.group = .streamDecoder ∧ encode i = some (.stream w)) ∧
  (∀ v : Byte, ∃ i : Instr, decode (.opcode v) = .ok i ∧
    i.wellFormed = true ∧ i.group = .frameOpcode ∧ encode i = some (.opcode v))

/-- 40_encoder R138: while `enc_run` = 1 the table selects the operation and the byte on the wire; in every state of the
invariant one of the five is selected (so `enc_ph` is not DONE), and in no state are two. -/
def Obligations.EncoderSelectionIsTheTable : Prop :=
  (∀ (s : State) (b : Block), s.block s.turn = b → b.encRun = true →
    (b.encPh = .data → b.encIdx ≠ b.encN → ∀ v, b.frameByte b.encIdx = some v → v ≠ 0xFF →
      encoderOp s.turn s = exec (.encLit v) s ∧ b.txData = some v) ∧
    (b.encPh = .data → b.encIdx ≠ b.encN → b.frameByte b.encIdx = some 0xFF →
      encoderOp s.turn s = exec .encStuff1 s ∧ b.txData = some 0xFF) ∧
    (b.encPh = .data → b.encIdx = b.encN → encoderOp s.turn s = exec .encTerm1 s ∧ b.txData = some 0xFF) ∧
    (b.encPh = .stuff2 → encoderOp s.turn s = exec .encStuff2 s ∧ b.txData = some 0xFF) ∧
    (b.encPh = .term2 → encoderOp s.turn s = exec .encTerm2 s ∧ b.txData = some 0xAF)) ∧
  (∀ (s t t' : State) (i j : Instr), i.group = .streamEncoder → j.group = .streamEncoder →
    exec i s = .next t → exec j s = .next t' → i = j) ∧
  (∀ (s : State) (cap : Nat), blockOk cap (s.block s.turn) → sendReady (s.block s.turn) →
    (s.block s.turn).encRun = true →
    (s.block s.turn).encPh ≠ .done ∧ ∃ i t, i.group = .streamEncoder ∧ exec i s = .next t)

/-- 41_decoder R152: with `dec_run` = 1 a delivered byte runs the operation of the table and restarts the timer; with
`dec_run` = 0 no byte is delivered. -/
def Obligations.DecoderSelectionIsTheTable : Prop :=
  ∀ (s : State) (b : Block) (v : Byte), s.block s.turn = b →
    (b.decRun = true →
      (b.decEsc = false → v = 0xFF → decoderOp s.turn v s = exec .decEsc s) ∧
      (b.decEsc = false → v ≠ 0xFF → decoderOp s.turn v s = exec (.decData v) s) ∧
      (b.decEsc = true → v = 0xAF → decoderOp s.turn v s = exec .decEnd s) ∧
      (b.decEsc = true → v = 0xFF → decoderOp s.turn v s = exec .decLitesc s) ∧
      (b.decEsc = true → v ≠ 0xAF → v ≠ 0xFF → decoderOp s.turn v s = exec (.decBadesc v) s) ∧
      decoderOp s.turn v s = .next (s.setBlock s.turn (b.recvOnce v)) ∧ (b.recvOnce v).idleCnt = 0) ∧
    (b.decRun = false → ∀ rxValid chFail rst, delivered s s.turn rxValid chFail rst = none)

/-! ### The encoder -/

/-- 40_encoder R131. -/
def Obligations.EncStartBeginsAnEncode : Prop :=
  ∀ (s : State) (b : Block), s.block s.turn = b → b.encRun = false →
    exec .encStart s =
      .next (s.setBlock s.turn { b with encN := 2 + b.txPlen, encIdx := 0, encPh := .data, encRun := true }) ∧
    ∀ t, exec .encStart s = .next t →
      ∀ chFail rst, (t.block s.turn).txValid chFail rst = (!chFail && !rst)

/-- 40_encoder R132. `State.emit` is the acceptance of the byte by the channel. -/
def Obligations.EncLitSendsTheFrameByte : Prop :=
  ∀ (s : State) (b : Block) (v : Byte), s.block s.turn = b → b.encRun = true → b.encPh = .data →
    b.encIdx < b.encN → b.frameByte b.encIdx = some v → v ≠ 0xFF →
    exec (.encLit v) s = .next ((s.setBlock s.turn { b with encIdx := b.encIdx + 1 }).emit s.turn v)

/-- 40_encoder R133, R134: the two halves of a doubled `ESC`; only the second advances the index. -/
def Obligations.EncStuffDoublesTheEscape : Prop :=
  ∀ (s : State) (b : Block), s.block s.turn = b → b.encRun = true →
    (b.encPh = .data → b.encIdx < b.encN → b.frameByte b.encIdx = some 0xFF →
      exec .encStuff1 s = .next ((s.setBlock s.turn { b with encPh := .stuff2 }).emit s.turn 0xFF)) ∧
    (b.encPh = .stuff2 →
      exec .encStuff2 s =
        .next ((s.setBlock s.turn { b with encIdx := b.encIdx + 1, encPh := .data }).emit s.turn 0xFF))

/-- 40_encoder R135, R136: the two bytes of the terminator. -/
def Obligations.EncTermSendsTheTerminator : Prop :=
  ∀ (s : State) (b : Block), s.block s.turn = b → b.encRun = true →
    (b.encPh = .data → b.encIdx = b.encN →
      exec .encTerm1 s = .next ((s.setBlock s.turn { b with encPh := .term2 }).emit s.turn 0xFF)) ∧
    (b.encPh = .term2 →
      exec .encTerm2 s =
        .next ((s.setBlock s.turn { b with encPh := .done, encRun := false }).emit s.turn 0xAF))

/-- 20_memory R68, R71, R72: an accepted byte joins the end of its direction. Of the bytes in a direction the channel
loses exactly the one at place `k`, or gives it the value `v`; a place that holds no byte is left as it is; the other
direction is untouched. The `lose` and `alter` moves of a step are these two. That a full channel drops the accepted
byte is the model's reading of R71 (log 8). -/
def Obligations.ChannelKeepsOrder : Prop :=
  ∀ (s : State) (r : Role) (v : Byte) (k : Nat),
    ((s.stream r).length < s.params.chDepth → s.emit r v = s.setStream r (s.stream r ++ [v])) ∧
    (s.params.chDepth ≤ (s.stream r).length → s.emit r v = s) ∧
    ((loseByte r k s).stream r).Sublist (s.stream r) ∧
    ((alterByte r k v s).stream r).length = (s.stream r).length ∧
    (∀ j, j ≠ k → ((alterByte r k v s).stream r)[j]? = (s.stream r)[j]?) ∧
    (k < (s.stream r).length →
      ((loseByte r k s).stream r).length + 1 = (s.stream r).length ∧
      (loseByte r k s).stream r = (s.stream r).take k ++ (s.stream r).drop (k + 1) ∧
      ((alterByte r k v s).stream r)[k]? = some v) ∧
    ((s.stream r).length ≤ k → loseByte r k s = s ∧ alterByte r k v s = s) ∧
    (∀ rest, s.script = .lose r k :: rest → step s = .next (loseByte r k { s with script := rest })) ∧
    (∀ rest, s.script = .alter r k v :: rest → step s = .next (alterByte r k v { s with script := rest })) ∧
    (loseByte r k s).stream (otherRole r) = s.stream (otherRole r) ∧
    (alterByte r k v s).stream (otherRole r) = s.stream (otherRole r)

/-! ### The decoder -/

/-- 41_decoder R151: `RXBUF` is not erased. -/
def Obligations.DecStartClearsTheDecoder : Prop :=
  ∀ (s : State) (b : Block), s.block s.turn = b →
    exec .decStart s =
      .next (s.setBlock s.turn
        { b with decEsc := false, decErr := false, decLen := 0, decRes := .noResult, decRun := true, idleCnt := 0 }) ∧
    ∀ t, exec .decStart s = .next t →
      ∀ chFail rst, (t.block s.turn).rxReady chFail rst = (!chFail && !rst)

/-- 41_decoder R153: nothing is appended, whether or not `dec_err` is set. -/
def Obligations.DecEscSetsTheFlag : Prop :=
  ∀ (s : State) (b : Block), s.block s.turn = b → b.decRun = true → b.decEsc = false →
    exec .decEsc s = .next (s.setBlock s.turn { b with decEsc := true, idleCnt := 0 })

/-- 41_decoder R154, R155: the three cases of an Append, and the one byte of `RXBUF` it stores. -/
def Obligations.DecDataAppends : Prop :=
  ∀ (s : State) (b : Block) (v : Byte), s.block s.turn = b → b.decRun = true → b.decEsc = false → v ≠ 0xFF →
    (b.decErr = true → exec (.decData v) s = .next (s.setBlock s.turn { b with idleCnt := 0 })) ∧
    (b.decErr = false → b.decLen = 256 →
      exec (.decData v) s = .next (s.setBlock s.turn { b with decErr := true, idleCnt := 0 })) ∧
    (b.decErr = false → b.decLen ≠ 256 →
      ∃ m, exec (.decData v) s =
          .next (s.setBlock s.turn { b with rxbuf := m, decLen := b.decLen + 1, idleCnt := 0 }) ∧
        Memory.read m b.decLen = some v ∧ ∀ a, a ≠ b.decLen → Memory.read m a = Memory.read b.rxbuf a)

/-- 41_decoder R157, R155: the literal 0xFF is appended by the same tests (92 D7). -/
def Obligations.DecLitescAppendsTheEscape : Prop :=
  ∀ (s : State) (b : Block), s.block s.turn = b → b.decRun = true → b.decEsc = true →
    (b.decErr = true → exec .decLitesc s = .next (s.setBlock s.turn { b with decEsc := false, idleCnt := 0 })) ∧
    (b.decErr = false → b.decLen = 256 →
      exec .decLitesc s = .next (s.setBlock s.turn { b with decEsc := false, decErr := true, idleCnt := 0 })) ∧
    (b.decErr = false → b.decLen ≠ 256 →
      ∃ m, exec .decLitesc s =
          .next (s.setBlock s.turn { b with decEsc := false, rxbuf := m, decLen := b.decLen + 1, idleCnt := 0 }) ∧
        Memory.read m b.decLen = some 0xFF ∧ ∀ a, a ≠ b.decLen → Memory.read m a = Memory.read b.rxbuf a)

/-- 41_decoder R158: the byte is discarded. -/
def Obligations.DecBadescSetsTheError : Prop :=
  ∀ (s : State) (b : Block) (v : Byte), s.block s.turn = b → b.decRun = true → b.decEsc = true → v ≠ 0xAF →
    v ≠ 0xFF →
    exec (.decBadesc v) s = .next (s.setBlock s.turn { b with decEsc := false, decErr := true, idleCnt := 0 })

/-- 41_decoder R156, R159: a terminator and the end of data end the decode, each with its outcome, and no byte is taken
from then on. The end of data is the HOST's alone. -/
def Obligations.DecodeEndsWithItsOutcome : Prop :=
  (∀ (s : State) (b : Block), s.block s.turn = b → b.decRun = true → b.decEsc = true →
    exec .decEnd s =
      .next (s.setBlock s.turn
        { b with decEsc := false, decRun := false, idleCnt := 0,
                 decRes := if b.decErr then .framingError else .frameOk }) ∧
    ∀ t, exec .decEnd s = .next t → ∀ chFail rst, (t.block s.turn).rxReady chFail rst = false) ∧
  (∀ s t : State, s.turn = .device → exec .decEod s ≠ .next t) ∧
  (∀ s : State, s.turn = .host → s.host.decRun = true → s.host.idleCnt = s.params.nIdle →
    exec .decEod s =
      .next { s with
        host := { s.host with decRun := false, decRes := if s.host.decErr then .framingError else .timeout } })

/-! ### The HOST instance -/

/-- 42_host_correlator R181: the writes of a call's start; the streams are not touched. A payload length above the
capacity is refused. -/
def Obligations.HostCallStartsTheCall : Prop :=
  ∀ (s : State) (id op : Byte) (plen : Nat), s.host.trState = .hIdle → id ≠ 0xFF → plen ≤ s.params.capTxPay →
    exec (.hostCall id op plen) s =
      .next { s with
        host := { s.host with
          curId := id, hdr0 := id, hdr1 := op, txPlen := plen, busy := true, done := false, result := .noResult,
          respStatus := 0x00, encN := 2 + plen, encIdx := 0, encPh := .data, encRun := true, trState := .hSend } } ∧
    ∀ big, s.params.capTxPay < big → exec (.hostCall id op big) s = .refused .payloadTooLong

/-- 42_host_correlator R192: while a call is in flight a `start` changes nothing, as an operation and in a cycle. -/
def Obligations.StartWhileBusyIsIgnored : Prop :=
  ∀ s : State, hostOk s.params s.host → s.host.busy = true →
    (∀ id op plen, exec (.hostCall id op plen) s = .next s) ∧
    (∀ i : HostIn, hostCycle i s = hostCycle { i with start := none } s)

/-- 42_host_correlator R183: the selected encoder operation. -/
def Obligations.HostSendRunsTheEncoder : Prop :=
  ∀ (s : State) (v : Byte) (b' : Block), s.host.trState = .hSend → s.host.encRun = true →
    s.host.encIdx ≤ s.host.encN → s.host.sendOnce = some (v, b') →
    exec .hostSend s = .next ({ s with host := b' }.emit .host v)

/-- 42_host_correlator R184, R188, 60_exceptions R271, R283: a channel failure ends the call in either phase; the byte
buffers, the decoder flags and both streams keep their contents. -/
def Obligations.ChannelFailureEndsTheCall : Prop :=
  ∀ s : State,
    (s.host.trState = .hSend →
      exec .hostChfailSend s =
        .next { s with
          host := { s.host with
            result := .channelError, respStatus := 0x00, busy := false, done := true, trState := .hIdle,
            encRun := false, decRun := false } }) ∧
    (s.host.trState = .hRecv →
      exec .hostChfailRecv s =
        .next { s with
          host := { s.host with
            result := .channelError, respStatus := 0x00, busy := false, done := true, trState := .hIdle,
            encRun := false, decRun := false } }) ∧
    resultCode .channelError = 2

/-- 42_host_correlator R185. -/
def Obligations.HostEnterRecvStartsTheDecoder : Prop :=
  ∀ s : State, s.host.trState = .hSend → s.host.encRun = false → s.host.encPh = .done →
    exec .hostEnterRecv s =
      .next { s with
        host := { s.host with
          decEsc := false, decErr := false, decLen := 0, decRes := .noResult, decRun := true, idleCnt := 0,
          trState := .hRecv } }

/-- 42_host_correlator R186: the decoder's operation, and the validation when it ended the decode. -/
def Obligations.HostRecvDecodesAndValidates : Prop :=
  ∀ (s : State) (v : Byte), s.host.trState = .hRecv → s.host.decRun = true → s.host.encRun = false →
    ((s.host.recvOnce v).decRun = true → exec (.hostRecv v) s = .next { s with host := s.host.recvOnce v }) ∧
    ((s.host.recvOnce v).decRun = false → ∀ res st, (s.host.recvOnce v).verdict = some (res, st) →
      exec (.hostRecv v) s = .next { s with host := (s.host.recvOnce v).ended res st })

/-- 42_host_correlator R187, R189, 41_decoder R159: the expired timer ends the call Timeout, or FramingError if the error
flag was set. -/
def Obligations.HostTimeoutEndsTheCall : Prop :=
  ∀ s : State, s.host.trState = .hRecv → s.host.decRun = true → s.host.encRun = false →
    s.host.idleCnt = s.params.nIdle →
    exec .hostTimeout s =
      .next { s with
        host := { s.host with
          decRun := false, decRes := if s.host.decErr then .framingError else .timeout,
          result := if s.host.decErr then .framingError else .timeout,
          respStatus := 0x00, busy := false, done := true, trState := .hIdle } }

/-- 42_host_correlator R189: the six tests, the first that applies decides, with the codes of 10_state R32. -/
def Obligations.HostValidateClassifies : Prop :=
  (∀ s : State, s.host.trState = .hRecv → s.host.decRun = false → s.host.encRun = false →
    (s.host.decRes = .timeout → exec .hostValidate s = .next { s with host := s.host.ended .timeout 0x00 }) ∧
    (s.host.decRes = .framingError →
      exec .hostValidate s = .next { s with host := s.host.ended .framingError 0x00 }) ∧
    (s.host.decRes = .frameOk → s.host.decLen < 2 →
      exec .hostValidate s = .next { s with host := s.host.ended .shortFrame 0x00 }) ∧
    (s.host.decRes = .frameOk → 2 ≤ s.host.decLen → ∀ id, Memory.read s.host.rxbuf 0 = some id →
      (id ≠ s.host.curId → exec .hostValidate s = .next { s with host := s.host.ended .desync 0x00 }) ∧
      (id = s.host.curId → ∀ st, Memory.read s.host.rxbuf 1 = some st →
        (st = 0x00 → exec .hostValidate s = .next { s with host := s.host.ended .ok 0x00 }) ∧
        (st ≠ 0x00 → exec .hostValidate s = .next { s with host := s.host.ended .appStatus st })))) ∧
  (∀ b : Block, ∀ res st, b.ended res st =
    { b with result := res, respStatus := st, busy := false, done := true, trState := .hIdle }) ∧
  resultCode .ok = 0 ∧ resultCode .appStatus = 1 ∧ resultCode .framingError = 3 ∧ resultCode .timeout = 4 ∧
  resultCode .shortFrame = 5 ∧ resultCode .desync = 6

/-! ### The DEVICE instance -/

/-- 43_device_responder R211: the decoder's operation, and what follows when it ended the decode. -/
def Obligations.DevRecvDecodesAndServes : Prop :=
  ∀ (s : State) (v : Byte), s.device.trState = .dRecv → s.device.decRun = true →
    ((s.device.recvOnce v).decRun = true → exec (.devRecv v) s = .next { s with device := s.device.recvOnce v }) ∧
    ((s.device.recvOnce v).decRun = false → ∀ b', (s.device.recvOnce v).served = some b' →
      exec (.devRecv v) s = .next { s with device := b' })

/-- 43_device_responder R212, R213: a damaged frame and a short frame are dropped in silence. -/
def Obligations.DevDiscardsInSilence : Prop :=
  ∀ s : State, s.device.trState = .dRecv → s.device.decRun = false →
    (s.device.decRes = .framingError →
      exec .devDiscard s =
        .next { s with
          device := { s.device with
            decEsc := false, decErr := false, decLen := 0, decRes := .noResult, decRun := true, idleCnt := 0 } }) ∧
    (s.device.decRes = .frameOk → s.device.decLen < 2 →
      exec .devDiscardShort s =
        .next { s with
          device := { s.device with
            decEsc := false, decErr := false, decLen := 0, decRes := .noResult, decRun := true, idleCnt := 0 } })

/-- 43_device_responder R214: the id is taken, and the command waits at the dispatcher port with its opcode and length. -/
def Obligations.DevDispatchOffersTheCommand : Prop :=
  ∀ (s : State) (id : Byte), s.device.trState = .dRecv → s.device.decRun = false → s.device.decRes = .frameOk →
    2 ≤ s.device.decLen → Memory.read s.device.rxbuf 0 = some id →
    exec .devDispatch s = .next { s with device := { s.device with curId := id, trState := .dDispatch } } ∧
    ∀ t, exec .devDispatch s = .next t →
      t.device.dispReq = true ∧ t.device.cmdOpcode = Memory.read s.device.rxbuf 1 ∧
      t.device.cmdPlen = some (s.device.decLen - 2) ∧ t.device.rxReady false false = false

/-- 43_device_responder R215: the response carries the id of the command. -/
def Obligations.DevRespondStartsTheResponse : Prop :=
  ∀ (s : State) (st : Byte) (n : Nat), s.device.trState = .dDispatch → n ≤ 254 →
    exec (.devRespond st n) s =
      .next { s with
        device := { s.device with
          hdr0 := s.device.curId, hdr1 := st, txPlen := n, encN := 2 + n, encIdx := 0, encPh := .data,
          encRun := true, trState := .dSend } }

/-- 43_device_responder R216: the selected encoder operation, and back to receiving when it was the last. -/
def Obligations.DevSendRunsTheEncoder : Prop :=
  ∀ (s : State) (v : Byte) (b' : Block), s.device.trState = .dSend → s.device.encRun = true →
    s.device.encIdx ≤ s.device.encN → s.device.sendOnce = some (v, b') →
    (b'.encRun = true → exec .devSend s = .next ({ s with device := b' }.emit .device v)) ∧
    (b'.encRun = false →
      exec .devSend s =
        .next ({ s with
          device := { b' with
            decEsc := false, decErr := false, decLen := 0, decRes := .noResult, decRun := true, idleCnt := 0,
            trState := .dRecv } }.emit .device v))

/-! ### The dispatcher. `answered s r` is the system with the answer `r` computed and held for its pulse: the latch, the
radio log and the counter in it are the model's (log 19, 17, 12). -/

/-- 45_dispatcher_interface R233, R236, R238, R240, R242, R244, with the layouts of R250 and R251: a command without
payload is answered OK with the resident value, which stays. The order in which GET_FREQ gives the four bytes back is
open (R240, 91 N10) and the model's choice: as they were carried (log 15). -/
def Obligations.NopAndGetsAnswerTheResidentState : Prop :=
  ∀ s : State, waiting s [] →
    exec .nop s = .next (answered s ⟨0x00, [], s.disp, none⟩) ∧
    exec .getOds s =
      .next (answered s
        ⟨0x00,
          [s.disp.ods.modulation, s.disp.ods.clkDiv, s.disp.ods.edgeRate, s.disp.ods.groupWidth,
           s.disp.ods.bitRate.extractLsb' 8 8, s.disp.ods.bitRate.extractLsb' 0 8,
           s.disp.ods.lcWarm, s.disp.ods.divWarm, s.disp.ods.paWarm], s.disp, none⟩) ∧
    exec .getPa s =
      .next (answered s
        ⟨0x00,
          [s.disp.pa.alpha.extractLsb' 24 8, s.disp.pa.alpha.extractLsb' 16 8, s.disp.pa.alpha.extractLsb' 8 8,
           s.disp.pa.alpha.extractLsb' 0 8, s.disp.pa.beta.extractLsb' 24 8, s.disp.pa.beta.extractLsb' 16 8,
           s.disp.pa.beta.extractLsb' 8 8, s.disp.pa.beta.extractLsb' 0 8, s.disp.pa.level, s.disp.pa.maxDrv,
           s.disp.pa.nominalCap.extractLsb' 8 8, s.disp.pa.nominalCap.extractLsb' 0 8], s.disp, none⟩) ∧
    exec .getFreq s =
      .next (answered s
        ⟨0x00,
          [s.disp.freq.extractLsb' 24 8, s.disp.freq.extractLsb' 16 8, s.disp.freq.extractLsb' 8 8,
           s.disp.freq.extractLsb' 0 8], s.disp, none⟩) ∧
    exec .getFdev s = .next (answered s ⟨0x00, [s.disp.fdev], s.disp, none⟩) ∧
    exec .getEnc s = .next (answered s ⟨0x00, [s.disp.enc], s.disp, none⟩)

/-- 45_dispatcher_interface R252: the identity values, at reset and in every state of the invariant; R234, R235, R255:
they are answered OK in a wire form that depends on the value alone. Which form is open (91 N9, log 11): the statement
holds for any. -/
def Obligations.IdentityIsAnsweredInSomeWireForm : Prop :=
  State.reset.disp.devType = 0x0100 ∧ State.reset.disp.devRev = 0x0003 ∧
  (∀ s : State, Inv s → s.disp.devType = 0x0100 ∧ s.disp.devRev = 0x0003) ∧
  ∃ typeForm revForm : BitVec 16 → List Byte,
    (∀ x, (typeForm x).length ≤ 12) ∧ (∀ x, (revForm x).length ≤ 12) ∧
    ∀ s : State, waiting s [] →
      exec .getDevType s = .next (answered s ⟨0x00, typeForm s.disp.devType, s.disp, none⟩) ∧
      exec .getDevRev s = .next (answered s ⟨0x00, revForm s.disp.devRev, s.disp, none⟩)

/-- 93 U6: a payload on a command that takes none is answered as without it, or INVALID_FRAME_LEN; nothing changes
either way. Which is a free value (log 12). -/
def Obligations.PayloadOnAGetIsTolerated : Prop :=
  ∀ op ∈ ([0x00, 0x01, 0x02, 0x0A, 0x0C, 0x0E, 0x10, 0x12] : List Byte),
    ∀ (s : State) (p : List Byte), waiting s p → p ≠ [] → ∀ c,
      exec (decodeOpcode op) s = .next (answered s (dispatchReply op s.disp [] c)) ∨
      exec (decodeOpcode op) s = .next (answered s ⟨0x10, [], s.disp, none⟩)

/-- 45_dispatcher_interface R237, R250: exactly 9 bytes; the record replaces the resident one, and GET_ODS's layout of it
is the payload again. The empty response payload is read from R237 (91 N11; log 14), and that a record within its widths
is always taken from R250 and 93 U7 (91 N14; log 13). -/
def Obligations.SetOdsReplacesTheRecord : Prop :=
  ∀ (s : State) (p : List Byte), waiting s p →
    (p.length ≠ 9 → exec .setOds s = .next (answered s ⟨0x10, [], s.disp, none⟩)) ∧
    (∀ m c e g r1 r0 l d a : Byte, p = [m, c, e, g, r1, r0, l, d, a] →
      c.toNat < 8 → e.toNat < 4 → g.toNat < 8 → r1.toNat < 128 → l.toNat < 16 → d.toNat < 16 → a.toNat < 16 →
      exec .setOds s = .next (answered s ⟨0x00, [], { s.disp with ods := ⟨m, c, e, g, r1 ++ r0, l, d, a⟩ }, none⟩) ∧
      packOds ⟨m, c, e, g, r1 ++ r0, l, d, a⟩ = p)

/-- 45_dispatcher_interface R239, R251: exactly 12 bytes, likewise (logs 14 and 13). -/
def Obligations.SetPaReplacesTheRecord : Prop :=
  ∀ (s : State) (p : List Byte), waiting s p →
    (p.length ≠ 12 → exec .setPa s = .next (answered s ⟨0x10, [], s.disp, none⟩)) ∧
    (∀ a3 a2 a1 a0 b3 b2 b1 b0 l m n1 n0 : Byte, p = [a3, a2, a1, a0, b3, b2, b1, b0, l, m, n1, n0] →
      l.toNat < 128 → m.toNat < 2 → n1.toNat < 2 →
      exec .setPa s =
        .next (answered s
          ⟨0x00, [],
            { s.disp with pa := ⟨a3 ++ a2 ++ a1 ++ a0, b3 ++ b2 ++ b1 ++ b0, l, m, n1 ++ n0⟩ }, none⟩) ∧
      packPa ⟨a3 ++ a2 ++ a1 ++ a0, b3 ++ b2 ++ b1 ++ b0, l, m, n1 ++ n0⟩ = p)

/-- 45_dispatcher_interface R241: exactly 4 bytes of any value, which GET_FREQ gives back in the order they were carried:
the model's choice (91 N10; log 15). The empty response payload is log 14. -/
def Obligations.SetFreqReplacesTheFrequency : Prop :=
  ∀ (s : State) (p : List Byte), waiting s p →
    (p.length ≠ 4 → exec .setFreq s = .next (answered s ⟨0x10, [], s.disp, none⟩)) ∧
    (p.length = 4 → ∃ x, be32 x = p ∧
      exec .setFreq s = .next (answered s ⟨0x00, [], { s.disp with freq := x }, none⟩))

/-- 45_dispatcher_interface R243: exactly 1 byte; an index of 0 to 104 is taken (93 U7). The empty response payload is
log 14. -/
def Obligations.SetFdevReplacesTheIndex : Prop :=
  ∀ (s : State) (p : List Byte), waiting s p →
    (p.length ≠ 1 → exec .setFdev s = .next (answered s ⟨0x10, [], s.disp, none⟩)) ∧
    (∀ v : Byte, p = [v] → v.toNat ≤ 104 →
      exec .setFdev s = .next (answered s ⟨0x00, [], { s.disp with fdev := v }, none⟩))

/-- 45_dispatcher_interface R245: 1 byte of value 0, 1 or 2. With a wrong length and a first byte out of range both tests
fail, and either status may come (93 U5, log 12). That the first byte is the one tested, so that a first byte in range or
none gives INVALID_FRAME_LEN alone, is read from the example of U5 (log 34). The empty response payload is log 14. -/
def Obligations.SetEncTakesZeroOneTwo : Prop :=
  ∀ (s : State) (p : List Byte), waiting s p →
    (∀ v : Byte, p = [v] →
      (v.toNat ≤ 2 → exec .setEnc s = .next (answered s ⟨0x00, [], { s.disp with enc := v }, none⟩)) ∧
      (2 < v.toNat → exec .setEnc s = .next (answered s ⟨0x11, [], s.disp, none⟩))) ∧
    (p.length ≠ 1 → (∀ v ∈ p.head?, v.toNat ≤ 2) →
      exec .setEnc s = .next (answered s ⟨0x10, [], s.disp, none⟩)) ∧
    (p.length ≠ 1 →
      exec .setEnc s = .next (answered s ⟨0x10, [], s.disp, none⟩) ∨
      exec .setEnc s = .next (answered s ⟨0x11, [], s.disp, none⟩))

/-- 45_dispatcher_interface R246: the payload, also an empty one, becomes the Frame Buffer. The empty response payload is
log 14. -/
def Obligations.LoadFrameReplacesTheBuffer : Prop :=
  ∀ (s : State) (p : List Byte), waiting s p →
    exec .loadFrame s = .next (answered s ⟨0x00, [], { s.disp with frameBuf := p }, none⟩)

/-- 45_dispatcher_interface R247: a combined length of exactly 256 is accepted. The empty response payload is log 14. -/
def Obligations.AppendFrameRespectsTheCapacity : Prop :=
  ∀ (s : State) (p : List Byte), waiting s p →
    (s.disp.frameBuf.length + p.length ≤ 256 →
      exec .appendFrame s = .next (answered s ⟨0x00, [], { s.disp with frameBuf := s.disp.frameBuf ++ p }, none⟩)) ∧
    (256 < s.disp.frameBuf.length + p.length →
      exec .appendFrame s = .next (answered s ⟨0x51, [], s.disp, none⟩))

/-- 45_dispatcher_interface R248: the cookie, then a repeat count of one open width (91 N10, log 16): the statement holds
for any. The transmission gets the resident Frame Buffer and configuration, which stay (log 17). With cookie and length
both wrong, as a payload shorter than four bytes has them (log 18), either status may come (93 U5, log 12). The empty
response payload is log 14. -/
def Obligations.RfSendIsGuardedByTheCookie : Prop :=
  ∃ width : Nat, 1 ≤ width ∧ width ≤ 250 ∧
    ∀ (s : State) (p : List Byte), waiting s p →
      (∀ count : List Byte, count.length = width → p = [0xCA, 0x4F, 0x09, 0x96] ++ count →
        exec .rfSend s =
          .next (answered s
            ⟨0x00, [], s.disp,
              some ⟨s.disp.frameBuf, s.disp.ods, s.disp.pa, s.disp.freq, s.disp.fdev, s.disp.enc, count⟩⟩)) ∧
      (p.take 4 ≠ [0xCA, 0x4F, 0x09, 0x96] → p.length = 4 + width →
        exec .rfSend s = .next (answered s ⟨0x50, [], s.disp, none⟩)) ∧
      (p.take 4 = [0xCA, 0x4F, 0x09, 0x96] → p.length ≠ 4 + width →
        exec .rfSend s = .next (answered s ⟨0x10, [], s.disp, none⟩)) ∧
      (p.take 4 ≠ [0xCA, 0x4F, 0x09, 0x96] → p.length ≠ 4 + width →
        exec .rfSend s = .next (answered s ⟨0x50, [], s.disp, none⟩) ∨
        exec .rfSend s = .next (answered s ⟨0x10, [], s.disp, none⟩))

/-- 45_dispatcher_interface R249, 30_encoding R98: every opcode that is not listed is answered UNKNOWN_CMD. The empty
response payload is log 14. -/
def Obligations.UnlistedOpcodesAreUnknown : Prop :=
  ∀ v : Byte, v ∉ ([0x00, 0x01, 0x02, 0x0A, 0x0B, 0x0C, 0x0D, 0x0E, 0x0F, 0x10, 0x11, 0x12, 0x13, 0x14, 0x15,
      0x33] : List Byte) →
    decodeOpcode v = .unknown v ∧
    ∀ (s : State) (p : List Byte), waiting s p →
      exec (.unknown v) s = .next (answered s ⟨0x01, [], s.disp, none⟩)

/-- 93 U7: a payload of the right length with a field outside its width is taken or answered INVALID_ARGUMENT; if it is
not taken, nothing changes. Which is a free value (log 12). That what is taken is the payload whole, so that a GET gives
it back, is the model's choice (91 N14; log 38). The empty response payload is log 14. -/
def Obligations.WideFieldsAreTakenOrRefused : Prop :=
  ∀ (s : State) (p : List Byte), waiting s p →
    (p.length = 9 → ∃ o, packOds o = p ∧
      (exec .setOds s = .next (answered s ⟨0x00, [], { s.disp with ods := o }, none⟩) ∨
       exec .setOds s = .next (answered s ⟨0x11, [], s.disp, none⟩))) ∧
    (p.length = 12 → ∃ o, packPa o = p ∧
      (exec .setPa s = .next (answered s ⟨0x00, [], { s.disp with pa := o }, none⟩) ∨
       exec .setPa s = .next (answered s ⟨0x11, [], s.disp, none⟩))) ∧
    (∀ v : Byte, p = [v] →
      exec .setFdev s = .next (answered s ⟨0x00, [], { s.disp with fdev := v }, none⟩) ∨
      exec .setFdev s = .next (answered s ⟨0x11, [], s.disp, none⟩))

/-- 45_dispatcher_interface R231: a command that answers anything but OK has changed nothing. That its response payload is
empty, so that `TXPAY` is not touched either, is log 14. -/
def Obligations.FailedCommandsChangeNothing : Prop :=
  ∀ (i : Instr) (s t : State) (st : Byte) (n : Nat), i.group = .frameOpcode → exec i s = .next t →
    t.disp.answer = some (st, n) → st ≠ 0x00 →
    t.disp = { s.disp with answer := some (st, 0) } ∧ t.device = s.device ∧ t.radio = s.radio

/-- 45_dispatcher_interface R254, R255: the statuses the dispatcher can return, and the longest response. -/
def Obligations.StatusesAndResponsesAreBounded : Prop :=
  ∀ (i : Instr) (s t : State), i.group = .frameOpcode → exec i s = .next t →
    ∃ st n, t.disp.answer = some (st, n) ∧ n ≤ 12 ∧ st ∈ ([0x00, 0x01, 0x10, 0x11, 0x50, 0x51] : List Byte)

/-- The answer's payload reads back from `TXPAY`, and no other byte of any buffer, no stream and no HOST register
changes (10_state R43). -/
def Obligations.AnswerStoresOnlyItsPayload : Prop :=
  ∀ (s : State) (r : Reply),
    Memory.readRange (answered s r).device.txpay 0 r.payload.length = some r.payload ∧
    (∀ a, r.payload.length ≤ a → Memory.read (answered s r).device.txpay a = Memory.read s.device.txpay a) ∧
    (∀ a, Memory.read (answered s r).device.rxbuf a = Memory.read s.device.rxbuf a) ∧
    (answered s r).host = s.host ∧ (answered s r).hd = s.hd ∧ (answered s r).dh = s.dh

/-! ### The step, the cycle, reset -/

/-- A step takes the next move of the script and runs the operation that the move selects, with what the cycle does
around it: the port write and the byte taken or the tick counted (`hostBefore`), the start of the decoder after the last
byte of a send (42_host_correlator R185). For a service of the dispatcher it runs what frame byte 1 decodes to
(45_dispatcher_interface R230). With no move left nothing happens (log 2). The last two clauses write out the conditions
of 42_host_correlator R180 for H_IDLE and H_SEND (H_RECV: `EventsOfACycleHaveTheirPriority`) and of 43_device_responder
R210; in a cycle that selects nothing only the port write happens. That the operation runs on the state after the port
write of its cycle is the model's choice (log 23), as are the held answer (log 19) and the dispatcher's start-up as a move
(log 30). -/
def Obligations.StepRunsTheSelectedOperation : Prop :=
  (∀ s : State, s.script = [] → step s = .next s) ∧
  (∀ (s s0 : State) (m : Move) (rest : List Move), s.script = m :: rest → s0 = { s with script := rest } →
    (∀ i, m = .host i → step s = hostCycle i { s0 with turn := .host }) ∧
    (∀ i, m = .device i → step s = deviceCycle i { s0 with turn := .device }) ∧
    (m = .dispatcher → s0.device.trState ≠ .dDispatch ∨ s0.disp.answer ≠ none → step s = .next s0) ∧
    (m = .dispatcherStart → step s = .next { s0 with disp := Dispatcher.start }) ∧
    (∀ r k, m = .lose r k → step s = .next (s0.setStream r ((s0.stream r).eraseIdx k))) ∧
    (∀ r k v, m = .alter r k v → step s = .next (s0.setStream r ((s0.stream r).set k v)))) ∧
  (∀ (s s0 : State) (i : HostIn) (rest : List Move) (op : Instr),
    s.script = .host i :: rest → s0 = { s with script := rest, turn := .host } → i.rst = false →
    s0.host.readFault i.rd = none → hostSelect i s0 = some op →
    (op ≠ .hostSend → step s = exec op (hostBefore op (clientWrite i s0))) ∧
    (op = .hostSend → ∀ t, exec .hostSend (clientWrite i s0) = .next t →
      step s = if t.host.encRun = false then exec .hostEnterRecv t else .next t)) ∧
  (∀ (s s0 : State) (i : DevIn) (rest : List Move) (op : Instr),
    s.script = .device i :: rest → s0 = { s with script := rest, turn := .device } → i.rst = false →
    s0.device.readFault i.rd = none → deviceSelect i s0 = some op →
    step s = exec op (deviceBefore op (dispatcherWrite i s0))) ∧
  (∀ (s s0 : State) (rest : List Move) (v : Byte) (i : Instr),
    s.script = .dispatcher :: rest → s0 = { s with script := rest } → s0.device.trState = .dDispatch →
    s0.disp.answer = none → Memory.read s0.device.rxbuf 1 = some v → decode (.opcode v) = .ok i →
    step s = exec i s0) ∧
  (∀ (i : HostIn) (s : State), hostOk s.params s.host → i.rst = false → s.host.readFault i.rd = none →
    (s.host.trState = .hIdle →
      (∀ id op n, i.start = some (id, op, n) → hostCycle i s = exec (.hostCall id op n) (clientWrite i s)) ∧
      (i.start = none → hostCycle i s = .next (clientWrite i s))) ∧
    (s.host.trState = .hSend →
      (i.chFail = true → hostCycle i s = exec .hostChfailSend s) ∧
      (i.chFail = false → i.txReady = true → ∀ t, exec .hostSend s = .next t →
        hostCycle i s = if t.host.encRun = false then exec .hostEnterRecv t else .next t) ∧
      (i.chFail = false → i.txReady = false → hostCycle i s = .next s))) ∧
  (∀ (i : DevIn) (s : State), deviceOk s.device → i.rst = false → s.device.readFault i.rd = none →
    (s.device.trState = .dRecv →
      (∀ v rest, i.rxValid = true → s.hd = v :: rest → deviceCycle i s = exec (.devRecv v) { s with hd := rest }) ∧
      (i.rxValid = false ∨ s.hd = [] → deviceCycle i s = .next s)) ∧
    (s.device.trState = .dDispatch →
      (∀ st n, i.ack = .port st n ∨ (i.ack = .own ∧ s.disp.answer = some (st, n)) →
        deviceCycle i s =
          exec (.devRespond st n) { dispatcherWrite i s with disp := { s.disp with answer := none } }) ∧
      (i.ack = .low ∨ (i.ack = .own ∧ s.disp.answer = none) → deviceCycle i s = .next (dispatcherWrite i s))) ∧
    (s.device.trState = .dSend →
      (i.txReady = true → deviceCycle i s = exec .devSend s) ∧
      (i.txReady = false → deviceCycle i s = .next s)))

/-- 10_state R44, R45: reset wins over everything else in its cycle, gives every register its value and moves no byte; and
the system's reset state has those values. Nothing outside the block changes (70_reset_and_hazards R313), but for the
answer the model's dispatcher may hold, of which nothing is said here. -/
def Obligations.ResetGivesTheResetValues : Prop :=
  (∀ (i : HostIn) (s : State), i.rst = true → hostCycle i s = .next { s with host := State.reset.host }) ∧
  (∀ (i : DevIn) (s : State), i.rst = true →
    ∃ d, deviceCycle i s = .next { s with device := State.reset.device, disp := d } ∧
      { d with answer := none } = { s.disp with answer := none }) ∧
  (∀ (b : Block) (chFail : Bool), b.txValid chFail true = false ∧ b.rxReady chFail true = false) ∧
  State.reset.host =
    { hdr0 := 0x00, hdr1 := 0x00, txPlen := 0, txpay := [], encRun := false, encPh := .data, encIdx := 0, encN := 0,
      decEsc := false, decErr := false, decLen := 0, rxbuf := [], decRun := false, decRes := .noResult, idleCnt := 0,
      trState := .hIdle, curId := 0x00, busy := false, done := false, result := .noResult, respStatus := 0x00 } ∧
  State.reset.device = { State.reset.host with decRun := true, trState := .dRecv } ∧
  resultCode .noResult = 7

/-- The invariants hold at reset. -/
def Obligations.InvariantsHoldAtReset : Prop := Inv State.reset ∧ SafeInv State.reset

/-- Every step keeps the invariant of the system, whatever its surroundings do, and leaves the parameters as they are:
buffers canonical and within capacity (20_memory R60, 41_decoder R155), indices within bounds (10_state R46), only the
unit its state calls for runs (42_host_correlator R180, 43_device_responder R210), `busy` and `done` never both
(10_state R31), the id never 0xFF (10_state R30), the resident state legal (45_dispatcher_interface R232). -/
def Obligations.InvKeptByEveryStep : Prop :=
  ∀ s t : State, Inv s → step s = .next t → Inv t ∧ t.params = s.params

/-- While the surroundings keep their duties (`safeMove`: 93 U8, U9, U11) no step stops, and the invariant that says so
is kept. -/
def Obligations.DutifulSurroundingsNeverStop : Prop :=
  ∀ s : State, SafeInv s → (∀ m, s.script.head? = some m → safeMove s m) → ∃ t, step s = .next t ∧ SafeInv t

/-- Whatever the surroundings do, no step asks for an operation that the spec does not select (log 4) or that has no
meaning. -/
def Obligations.StepsAskOnlyForSelectedOperations : Prop :=
  ∀ s : State, Inv s → ∀ name, step s ≠ .refused (.notSelected name) ∧ step s ≠ .refused (.notModelled name)

/-- 60_exceptions R282, R291, R292: in one HOST cycle a channel failure wins over a byte, a byte over the timer; a tick
without a byte counts, and the tick that reaches `N_IDLE` ends the decode. A `start` in such a cycle is ignored. -/
def Obligations.EventsOfACycleHaveTheirPriority : Prop :=
  ∀ (s : State) (i : HostIn), hostOk s.params s.host → i.rst = false → i.rd = none →
    (i.chFail = true → s.host.trState = .hSend → hostCycle i s = exec .hostChfailSend s) ∧
    (i.chFail = true → s.host.trState = .hRecv → hostCycle i s = exec .hostChfailRecv s) ∧
    (i.chFail = false → s.host.trState = .hRecv →
      (∀ v rest, i.rxValid = true → s.dh = v :: rest → hostCycle i s = exec (.hostRecv v) { s with dh := rest }) ∧
      (i.rxValid = false ∨ s.dh = [] →
        (i.tick = false → hostCycle i s = .next s) ∧
        (i.tick = true → s.host.idleCnt + 1 < s.params.nIdle →
          hostCycle i s = .next { s with host := { s.host with idleCnt := s.host.idleCnt + 1 } }) ∧
        (i.tick = true → s.host.idleCnt + 1 = s.params.nIdle →
          hostCycle i s = exec .hostTimeout { s with host := { s.host with idleCnt := s.params.nIdle } })))

/-- 10_state R42, R43, 20_memory R73: a write to `TXPAY` is taken while `busy` = 0, by the dispatcher while `disp_req` = 1,
and only below the capacity; else it changes nothing. That holds in a cycle with any other inputs, a byte accepted among
them: the cycle goes on as one without the write, from the state that has the byte, or from the same state. That the
write comes before the rest of its cycle is the model's choice (log 23). The last four clauses give the cycles with no
other event. -/
def Obligations.PortWritesAreGuarded : Prop :=
  ∀ (s : State) (a : Nat) (v : Byte),
    (∀ i : HostIn, i.pw = some (a, v) →
      (s.host.busy = false → a < s.params.capTxPay →
        hostCycle i s =
          hostCycle { i with pw := none }
            { s with host := { s.host with txpay := Memory.write s.host.txpay a v } }) ∧
      (s.host.busy = true ∨ s.params.capTxPay ≤ a → hostCycle i s = hostCycle { i with pw := none } s)) ∧
    (∀ i : DevIn, i.pw = some (a, v) →
      (s.device.trState = .dDispatch → a < 254 →
        deviceCycle i s =
          deviceCycle { i with pw := none }
            { s with device := { s.device with txpay := Memory.write s.device.txpay a v } }) ∧
      (s.device.trState ≠ .dDispatch ∨ 254 ≤ a → deviceCycle i s = deviceCycle { i with pw := none } s)) ∧
    (s.host.busy = false → a < s.params.capTxPay →
      hostCycle { pw := some (a, v) } s =
        .next { s with host := { s.host with txpay := Memory.write s.host.txpay a v } }) ∧
    (s.host.busy = true ∨ s.params.capTxPay ≤ a → hostCycle { pw := some (a, v) } s = .next s) ∧
    (s.device.trState = .dDispatch → a < 254 →
      deviceCycle { pw := some (a, v) } s =
        .next { s with device := { s.device with txpay := Memory.write s.device.txpay a v } }) ∧
    (s.device.trState ≠ .dDispatch ∨ 254 ≤ a → deviceCycle { pw := some (a, v) } s = .next s)

/-- 93 U8, U9, U11 with 10_state R45: where the model stops. An id of 0xFF and payload lengths above the capacities are
refused; a buffer byte without a value faults, at the client's port and in the encoder. The fault at or above 256, an
address that 20_memory R60 does not have, is the model's choice (log 32). -/
def Obligations.WhereTheModelStops : Prop :=
  ∀ s : State,
    (s.host.trState = .hIdle → ∀ op plen, exec (.hostCall 0xFF op plen) s = .refused .idSentinel) ∧
    (s.host.trState = .hIdle → ∀ id op plen, id ≠ 0xFF → s.params.capTxPay < plen →
      exec (.hostCall id op plen) s = .refused .payloadTooLong) ∧
    (s.device.trState = .dDispatch → ∀ st n, 254 < n → exec (.devRespond st n) s = .refused .payloadTooLong) ∧
    (∀ a, a < 256 → Memory.read s.host.rxbuf a = none →
      hostCycle { rd := some a } s = .fault .unspecifiedByte) ∧
    (∀ a, 256 ≤ a → hostCycle { rd := some a } s = .fault .noSuchAddress) ∧
    (s.host.trState = .hSend → s.host.encRun = true → s.host.encPh = .data → s.host.encIdx < s.host.encN →
      s.host.frameByte s.host.encIdx = none → exec .hostSend s = .fault .unspecifiedByte)

/-! ### The functions of the spec, and the units that compute them -/

/-- 41_decoder R165, 40_encoder R140: a decoder in sync gets the frame back and takes nothing after it, an overlong frame
is a framing error that ends at the same place, no decoded frame exceeds the capacity, and Encode is injective. -/
def Obligations.DecodeOfEncodedFrame : Prop :=
  (∀ (cap : Nat) (f : List Byte) (e : List DecEvent),
    (f.length ≤ cap → decodeEvents cap ((encodeFrame f).map DecEvent.byte ++ e) = some (.frame f, e)) ∧
    (cap < f.length → decodeEvents cap ((encodeFrame f).map DecEvent.byte ++ e) = some (.framingError, e))) ∧
  (∀ (cap : Nat) (e rest : List DecEvent) (f : List Byte),
    decodeEvents cap e = some (.frame f, rest) → f.length ≤ cap) ∧
  (∀ f g : List Byte, encodeFrame f = encodeFrame g → f = g)

/-- 30_encoding R107: the length of an encoded frame, its shortest and longest. -/
def Obligations.EncodedLength : Prop :=
  encodeFrame [] = [0xFF, 0xAF] ∧
  ∀ f : List Byte,
    (encodeFrame f).length = f.length + f.count 0xFF + 2 ∧
    (2 ≤ f.length → 4 ≤ (encodeFrame f).length) ∧
    (encodeFrame f).length ≤ 2 * f.length + 2 ∧
    (∀ id g, f = id :: g → id ≠ 0xFF → (encodeFrame f).length ≤ 2 * f.length + 1) ∧
    ((∀ b ∈ f, b = 0xFF) → (encodeFrame f).length = 2 * f.length + 2)

/-- 40_encoder R139, 43_device_responder R215, R216: acknowledged with a status and a written payload, the DEVICE sends
exactly `Encode([id, status] ++ payload)`, one byte for each cycle in which the channel accepts, whatever the cycles in
which it does not, and then receives again. -/
def Obligations.DeviceSendsTheEncodedResponse : Prop :=
  ∀ (s : State) (st : Byte) (p : List Byte) (ready : List Bool) (rest : List Move) (w : List Byte),
    w = encodeFrame (s.device.curId :: st :: p) →
    s.device.trState = .dDispatch → p.length ≤ 254 →
    Memory.readRange s.device.txpay 0 p.length = some p →
    s.dh.length + w.length ≤ s.params.chDepth → ready.count true = w.length →
    s.script = .device { ack := .port st p.length } ::
      (ready.map (fun c => Move.device { txReady := c }) ++ rest) →
    ∃ t, Host.Core.run Sys2Proof.core (1 + ready.length) s = .next t ∧
      t.dh = s.dh ++ w ∧ t.hd = s.hd ∧ t.script = rest ∧ t.host = s.host ∧ t.radio = s.radio ∧
      t.params = s.params ∧ t.device.trState = .dRecv ∧ t.device.encRun = false ∧ t.device.decRun = true ∧
      t.device.decEsc = false ∧ t.device.decErr = false ∧ t.device.decLen = 0

/-- 41_decoder R150, 43_device_responder R211 to R214, R221: fed the bytes of one decode, the DEVICE ends it as
`Decode(CAP_RX, E)` does: a frame of two bytes or more waits for the dispatcher with its id, anything else is dropped and
the decoder starts again. -/
def Obligations.DeviceReceivesWhatDecodeGives : Prop :=
  ∀ (s : State) (bytes tail : List Byte) (rest : List Move) (d : Decoded),
    s.device.trState = .dRecv → s.device.decRun = true → s.device.decEsc = false → s.device.decErr = false →
    s.device.decLen = 0 → s.hd = bytes ++ tail → decodeBytes 256 bytes = some (d, []) →
    s.script = List.replicate bytes.length (Move.device { rxValid := true }) ++ rest →
    ∃ t, Host.Core.run Sys2Proof.core bytes.length s = .next t ∧
      t.hd = tail ∧ t.dh = s.dh ∧ t.script = rest ∧ t.host = s.host ∧ t.disp = s.disp ∧
      t.device.txpay = s.device.txpay ∧
      (∀ id op p, d = .frame (id :: op :: p) →
        t.device.trState = .dDispatch ∧ t.device.curId = id ∧ t.device.frame = some (id :: op :: p) ∧
        t.device.payload = some p) ∧
      ((∀ id op p, d ≠ .frame (id :: op :: p)) →
        t.device.trState = .dRecv ∧ t.device.decRun = true ∧ t.device.decEsc = false ∧ t.device.decErr = false ∧
        t.device.decLen = 0)

/-- 42_host_correlator R195: the whole call as one relation. The HOST writes `Encode([id, op] ++ P)` and ends with the
outcome that `HostCall` gives for the events of the receive side; a channel failure after `k` accepted bytes ends it
ChannelError with those `k` bytes written. -/
def Obligations.HostCallIsTheRelation : Prop :=
  ∀ (s : State) (id op : Byte) (p : List Byte) (ready : List Bool) (ein : List CallEvent) (tail : List Byte)
    (rest : List Move) (w : List Byte),
    w = encodeFrame (id :: op :: p) →
    s.host.trState = .hIdle → id ≠ 0xFF → p.length ≤ s.params.capTxPay → 1 ≤ s.params.nIdle →
    Memory.readRange s.host.txpay 0 p.length = some p → s.hd.length + w.length ≤ s.params.chDepth →
    (∀ res st pay, hostCallFn op p id none ein = (w, some (res, st, pay)) → s.dh = eventBytes ein ++ tail →
      ready.count true = w.length →
      s.script = .host { start := some (id, op, p.length) } ::
        (ready.map (fun c => Move.host { txReady := c }) ++ (ein.flatMap (callMoves s.params.nIdle) ++ rest)) →
      ∃ t, Host.Core.run Sys2Proof.core (1 + ready.length + (ein.flatMap (callMoves s.params.nIdle)).length) s =
          .next t ∧
        t.hd = s.hd ++ w ∧ t.script = rest ∧ t.device = s.device ∧ t.disp = s.disp ∧
        t.host.trState = .hIdle ∧ t.host.busy = false ∧ t.host.done = true ∧
        t.host.result = res ∧ t.host.respStatus = st ∧
        (res = .ok ∨ res = .appStatus → t.host.payload = some pay)) ∧
    (∀ k, k < w.length → ready.count true = k →
      s.script = .host { start := some (id, op, p.length) } ::
        (ready.map (fun c => Move.host { txReady := c }) ++ (.host { chFail := true } :: rest)) →
      ∃ t, Host.Core.run Sys2Proof.core (2 + ready.length) s = .next t ∧
        t.hd = s.hd ++ w.take k ∧ t.dh = s.dh ∧ t.script = rest ∧ t.device = s.device ∧ t.disp = s.disp ∧
        t.host.trState = .hIdle ∧ t.host.busy = false ∧ t.host.done = true ∧
        t.host.result = .channelError ∧ t.host.respStatus = 0x00)

/-- 00_scope R7, 42_host_correlator R196: on an undisturbed channel a call reaches the dispatcher and its answer comes
back: the HOST ends with the status and the payload of `Dispatch(op, P)`, and the resident state is as that leaves it. -/
def Obligations.CallBringsBackTheDispatchersAnswer : Prop :=
  ∀ (s : State) (id op : Byte) (p : List Byte) (rest : List Move) (r : Reply) (w w' : List Byte),
    r = dispatchReply op s.disp p (Config.freeChoice s.freeCtr) →
    w = encodeFrame (id :: op :: p) → w' = encodeFrame (id :: r.status :: r.payload) →
    s.host.trState = .hIdle → s.device.trState = .dRecv → s.device.decRun = true → s.device.decEsc = false →
    s.device.decErr = false → s.device.decLen = 0 → s.hd = [] → s.dh = [] → s.disp.answer = none →
    id ≠ 0xFF → p.length ≤ s.params.capTxPay → p.length ≤ 254 →
    Memory.readRange s.host.txpay 0 p.length = some p →
    w.length ≤ s.params.chDepth → w'.length ≤ s.params.chDepth →
    s.script = .host { start := some (id, op, p.length) } ::
      (List.replicate w.length (Move.host { txReady := true }) ++
      (List.replicate w.length (Move.device { rxValid := true }) ++
      (.dispatcher :: .device { ack := .own } ::
      (List.replicate w'.length (Move.device { txReady := true }) ++
      (List.replicate w'.length (Move.host { rxValid := true }) ++ rest))))) →
    ∃ t, Host.Core.run Sys2Proof.core (3 + 2 * w.length + 2 * w'.length) s = .next t ∧
      t.script = rest ∧ t.hd = [] ∧ t.dh = [] ∧ t.host.done = true ∧ t.host.busy = false ∧
      t.host.trState = .hIdle ∧ t.device.trState = .dRecv ∧
      t.host.result = (if r.status = 0x00 then .ok else .appStatus) ∧ t.host.respStatus = r.status ∧
      t.host.payload = some r.payload ∧ t.disp = { r.disp with answer := none } ∧
      t.radio = s.radio ++ r.job.toList
end

