-- ==== Sys2Proof/Laws/Memory.lean ====
section
/-! SUPPORT. The laws of a buffer: what reads and writes do, and that every operation keeps the canonical form. -/

namespace Sys2Proof.Machine

/-- The write leaves exactly the old indices and the new one. -/
theorem mem_write {m : Memory} {a : Nat} {v : Byte} {e : Host.Cell} (h : e ∈ Memory.write m a v) :
    e = (a, v) ∨ e ∈ m := by
  induction m with
  | nil => simpa [Memory.write] using h
  | cons c t ih =>
    obtain ⟨k, w⟩ := c
    simp only [Memory.write] at h
    split at h
    · simpa using h
    · split at h
      · rcases List.mem_cons.1 h with h | h <;> simp [h]
      · rcases List.mem_cons.1 h with h | h
        · simp [h]
        · rcases ih h with h | h <;> simp [h]

/-- A write keeps the canonical form. -/
theorem wf_write {m : Memory} (a : Nat) (v : Byte) (h : Memory.wf m) : Memory.wf (Memory.write m a v) := by
  induction m with
  | nil => simp [Memory.write, Memory.wf]
  | cons c t ih =>
    obtain ⟨k, w⟩ := c
    obtain ⟨hk, ht⟩ := List.pairwise_cons.1 h
    simp only [Memory.write]
    split
    · next hlt =>
      refine List.pairwise_cons.2 ⟨fun e he => ?_, h⟩
      rcases List.mem_cons.1 he with rfl | he
      · exact hlt
      · exact Nat.lt_trans hlt (hk e he)
    · split
      · next _ heq => subst heq; exact List.pairwise_cons.2 ⟨hk, ht⟩
      · next hnlt hne =>
        refine List.pairwise_cons.2 ⟨fun e he => ?_, ih ht⟩
        rcases mem_write he with rfl | he
        · exact Nat.lt_of_le_of_ne (Nat.le_of_not_lt hnlt) (Ne.symm hne)
        · exact hk e he

/-- A run of writes keeps the canonical form. -/
theorem wf_writeList (l : List Byte) : ∀ {m : Memory} (a : Nat), Memory.wf m → Memory.wf (Memory.writeList m a l) := by
  induction l with
  | nil => intro m a h; exact h
  | cons v t ih => intro m a h; exact ih (a + 1) (wf_write a v h)

/-- A port write keeps the canonical form. -/
theorem wf_portWrite (b : Block) (o : Bool) (c : Nat) (pw : Option (Nat × Byte)) (h : Memory.wf b.txpay) :
    Memory.wf (b.portWrite o c pw).txpay := by
  unfold Block.portWrite
  split
  · exact h
  · split
    · exact wf_write _ _ h
    · exact h

/-- An Append keeps the canonical form. -/
theorem wf_append (b : Block) (v : Byte) (h : Memory.wf b.rxbuf) : Memory.wf (b.append v).rxbuf := by
  unfold Block.append
  split
  · exact h
  · split
    · exact h
    · exact wf_write _ _ h

/-- Reading what was written. -/
theorem read_write_same (m : Memory) (a : Nat) (v : Byte) : Memory.read (Memory.write m a v) a = some v := by
  induction m with
  | nil => simp [Memory.write, Memory.read]
  | cons c t ih =>
    obtain ⟨k, w⟩ := c
    simp only [Memory.write]
    split
    · simp [Memory.read]
    · split
      · simp [Memory.read]
      · next h => simp [Memory.read, Ne.symm h, ih]

/-- A write leaves every other index alone. -/
theorem read_write_other (m : Memory) {a a' : Nat} (v : Byte) (h : a' ≠ a) :
    Memory.read (Memory.write m a v) a' = Memory.read m a' := by
  induction m with
  | nil => simp [Memory.write, Memory.read, Ne.symm h]
  | cons c t ih =>
    obtain ⟨k, w⟩ := c
    simp only [Memory.write]
    split
    · simp [Memory.read, Ne.symm h]
    · split
      · next _ heq => subst heq; simp [Memory.read, Ne.symm h]
      · simp [Memory.read, ih]

/-- A run of writes leaves every index below it alone. -/
theorem read_writeList_below (l : List Byte) : ∀ (m : Memory) {a a' : Nat}, a' < a →
    Memory.read (Memory.writeList m a l) a' = Memory.read m a' := by
  induction l with
  | nil => intro m a a' _; rfl
  | cons v t ih =>
    intro m a a' h
    simp only [Memory.writeList]
    rw [ih _ (by omega), read_write_other _ _ (by omega)]

/-- A run of writes leaves every index past it alone. -/
theorem read_writeList_above (l : List Byte) : ∀ (m : Memory) {a a' : Nat}, a + l.length ≤ a' →
    Memory.read (Memory.writeList m a l) a' = Memory.read m a' := by
  induction l with
  | nil => intro m a a' _; rfl
  | cons v t ih =>
    intro m a a' h
    simp only [List.length_cons] at h
    simp only [Memory.writeList]
    rw [ih _ (by omega), read_write_other _ _ (by omega)]

/-- A run of writes reads back. -/
theorem readRange_writeList (l : List Byte) : ∀ (m : Memory) (a : Nat),
    Memory.readRange (Memory.writeList m a l) a l.length = some l := by
  induction l with
  | nil => intro m a; rfl
  | cons v t ih =>
    intro m a
    simp only [Memory.writeList, List.length_cons, Memory.readRange]
    rw [read_writeList_below t _ (by omega), read_write_same, ih]

/-- A read range has the length asked for. -/
theorem readRange_length {m : Memory} : ∀ {n a : Nat} {l : List Byte}, Memory.readRange m a n = some l → l.length = n := by
  intro n
  induction n with
  | zero => intro a l h; simp only [Memory.readRange, Option.some.injEq] at h; subst h; rfl
  | succ n ih =>
    intro a l h
    simp only [Memory.readRange] at h
    split at h
    · next v t _ ht => cases h; simp [ih ht]
    · cases h

/-- A range whose bytes have all been written can be read. -/
theorem readRange_isSome {m : Memory} : ∀ {n a : Nat}, (∀ k, a ≤ k → k < a + n → (Memory.read m k).isSome) →
    (Memory.readRange m a n).isSome := by
  intro n
  induction n with
  | zero => intro a _; rfl
  | succ n ih =>
    intro a h
    obtain ⟨v, hv⟩ := Option.isSome_iff_exists.1 (h a (by omega) (by omega))
    obtain ⟨t, ht⟩ := Option.isSome_iff_exists.1 (ih (a := a + 1) (fun k h1 h2 => h k (by omega) (by omega)))
    simp [Memory.readRange, hv, ht]

/-- Every entry of a write is below a bound that held before and holds of the index. -/
theorem write_below {m : Memory} {cap a : Nat} {v : Byte} (h : ∀ e ∈ m, e.1 < cap) (ha : a < cap) :
    ∀ e ∈ Memory.write m a v, e.1 < cap := by
  intro e he
  rcases mem_write he with rfl | he
  · exact ha
  · exact h e he

/-- The same for a run of writes. -/
theorem writeList_below (l : List Byte) : ∀ {m : Memory} {cap a : Nat}, (∀ e ∈ m, e.1 < cap) → a + l.length ≤ cap →
    ∀ e ∈ Memory.writeList m a l, e.1 < cap := by
  induction l with
  | nil => intro m cap a h _; exact h
  | cons v t ih =>
    intro m cap a h ha
    simp only [List.length_cons] at ha
    exact ih (write_below h (by omega)) (by omega)

end Sys2Proof.Machine
end

