-- ==== Sys2Proof/Laws/State.lean ====
section
/-! SUPPORT. One lemma per field per update, so that no later proof unfolds a record update. -/

namespace Sys2Proof.Machine

variable (s : State) (b : Block) (r : Role)

/-! ### Unconditional updates of an instance -/

@[simp] theorem encStart_hdr0 : b.encStart.hdr0 = b.hdr0 := rfl
@[simp] theorem encStart_hdr1 : b.encStart.hdr1 = b.hdr1 := rfl
@[simp] theorem encStart_txPlen : b.encStart.txPlen = b.txPlen := rfl
@[simp] theorem encStart_txpay : b.encStart.txpay = b.txpay := rfl
@[simp] theorem encStart_encRun : b.encStart.encRun = true := rfl
@[simp] theorem encStart_encPh : b.encStart.encPh = .data := rfl
@[simp] theorem encStart_encIdx : b.encStart.encIdx = 0 := rfl
@[simp] theorem encStart_encN : b.encStart.encN = 2 + b.txPlen := rfl
@[simp] theorem encStart_decEsc : b.encStart.decEsc = b.decEsc := rfl
@[simp] theorem encStart_decErr : b.encStart.decErr = b.decErr := rfl
@[simp] theorem encStart_decLen : b.encStart.decLen = b.decLen := rfl
@[simp] theorem encStart_rxbuf : b.encStart.rxbuf = b.rxbuf := rfl
@[simp] theorem encStart_decRun : b.encStart.decRun = b.decRun := rfl
@[simp] theorem encStart_decRes : b.encStart.decRes = b.decRes := rfl
@[simp] theorem encStart_idleCnt : b.encStart.idleCnt = b.idleCnt := rfl
@[simp] theorem encStart_trState : b.encStart.trState = b.trState := rfl
@[simp] theorem encStart_curId : b.encStart.curId = b.curId := rfl
@[simp] theorem encStart_busy : b.encStart.busy = b.busy := rfl
@[simp] theorem encStart_done : b.encStart.done = b.done := rfl
@[simp] theorem encStart_result : b.encStart.result = b.result := rfl
@[simp] theorem encStart_respStatus : b.encStart.respStatus = b.respStatus := rfl

@[simp] theorem decStart_hdr0 : b.decStart.hdr0 = b.hdr0 := rfl
@[simp] theorem decStart_hdr1 : b.decStart.hdr1 = b.hdr1 := rfl
@[simp] theorem decStart_txPlen : b.decStart.txPlen = b.txPlen := rfl
@[simp] theorem decStart_txpay : b.decStart.txpay = b.txpay := rfl
@[simp] theorem decStart_encRun : b.decStart.encRun = b.encRun := rfl
@[simp] theorem decStart_encPh : b.decStart.encPh = b.encPh := rfl
@[simp] theorem decStart_encIdx : b.decStart.encIdx = b.encIdx := rfl
@[simp] theorem decStart_encN : b.decStart.encN = b.encN := rfl
@[simp] theorem decStart_decEsc : b.decStart.decEsc = false := rfl
@[simp] theorem decStart_decErr : b.decStart.decErr = false := rfl
@[simp] theorem decStart_decLen : b.decStart.decLen = 0 := rfl
@[simp] theorem decStart_rxbuf : b.decStart.rxbuf = b.rxbuf := rfl
@[simp] theorem decStart_decRun : b.decStart.decRun = true := rfl
@[simp] theorem decStart_decRes : b.decStart.decRes = .noResult := rfl
@[simp] theorem decStart_idleCnt : b.decStart.idleCnt = 0 := rfl
@[simp] theorem decStart_trState : b.decStart.trState = b.trState := rfl
@[simp] theorem decStart_curId : b.decStart.curId = b.curId := rfl
@[simp] theorem decStart_busy : b.decStart.busy = b.busy := rfl
@[simp] theorem decStart_done : b.decStart.done = b.done := rfl
@[simp] theorem decStart_result : b.decStart.result = b.result := rfl
@[simp] theorem decStart_respStatus : b.decStart.respStatus = b.respStatus := rfl

@[simp] theorem restartTimer_hdr0 : b.restartTimer.hdr0 = b.hdr0 := rfl
@[simp] theorem restartTimer_hdr1 : b.restartTimer.hdr1 = b.hdr1 := rfl
@[simp] theorem restartTimer_txPlen : b.restartTimer.txPlen = b.txPlen := rfl
@[simp] theorem restartTimer_txpay : b.restartTimer.txpay = b.txpay := rfl
@[simp] theorem restartTimer_encRun : b.restartTimer.encRun = b.encRun := rfl
@[simp] theorem restartTimer_encPh : b.restartTimer.encPh = b.encPh := rfl
@[simp] theorem restartTimer_encIdx : b.restartTimer.encIdx = b.encIdx := rfl
@[simp] theorem restartTimer_encN : b.restartTimer.encN = b.encN := rfl
@[simp] theorem restartTimer_decEsc : b.restartTimer.decEsc = b.decEsc := rfl
@[simp] theorem restartTimer_decErr : b.restartTimer.decErr = b.decErr := rfl
@[simp] theorem restartTimer_decLen : b.restartTimer.decLen = b.decLen := rfl
@[simp] theorem restartTimer_rxbuf : b.restartTimer.rxbuf = b.rxbuf := rfl
@[simp] theorem restartTimer_decRun : b.restartTimer.decRun = b.decRun := rfl
@[simp] theorem restartTimer_decRes : b.restartTimer.decRes = b.decRes := rfl
@[simp] theorem restartTimer_idleCnt : b.restartTimer.idleCnt = 0 := rfl
@[simp] theorem restartTimer_trState : b.restartTimer.trState = b.trState := rfl
@[simp] theorem restartTimer_curId : b.restartTimer.curId = b.curId := rfl
@[simp] theorem restartTimer_busy : b.restartTimer.busy = b.busy := rfl
@[simp] theorem restartTimer_done : b.restartTimer.done = b.done := rfl
@[simp] theorem restartTimer_result : b.restartTimer.result = b.result := rfl
@[simp] theorem restartTimer_respStatus : b.restartTimer.respStatus = b.respStatus := rfl

@[simp] theorem endCall_hdr0 (k : CallResult) (st : Byte) : (b.endCall k st).hdr0 = b.hdr0 := rfl
@[simp] theorem endCall_hdr1 (k : CallResult) (st : Byte) : (b.endCall k st).hdr1 = b.hdr1 := rfl
@[simp] theorem endCall_txPlen (k : CallResult) (st : Byte) : (b.endCall k st).txPlen = b.txPlen := rfl
@[simp] theorem endCall_txpay (k : CallResult) (st : Byte) : (b.endCall k st).txpay = b.txpay := rfl
@[simp] theorem endCall_encRun (k : CallResult) (st : Byte) : (b.endCall k st).encRun = b.encRun := rfl
@[simp] theorem endCall_encPh (k : CallResult) (st : Byte) : (b.endCall k st).encPh = b.encPh := rfl
@[simp] theorem endCall_encIdx (k : CallResult) (st : Byte) : (b.endCall k st).encIdx = b.encIdx := rfl
@[simp] theorem endCall_encN (k : CallResult) (st : Byte) : (b.endCall k st).encN = b.encN := rfl
@[simp] theorem endCall_decEsc (k : CallResult) (st : Byte) : (b.endCall k st).decEsc = b.decEsc := rfl
@[simp] theorem endCall_decErr (k : CallResult) (st : Byte) : (b.endCall k st).decErr = b.decErr := rfl
@[simp] theorem endCall_decLen (k : CallResult) (st : Byte) : (b.endCall k st).decLen = b.decLen := rfl
@[simp] theorem endCall_rxbuf (k : CallResult) (st : Byte) : (b.endCall k st).rxbuf = b.rxbuf := rfl
@[simp] theorem endCall_decRun (k : CallResult) (st : Byte) : (b.endCall k st).decRun = b.decRun := rfl
@[simp] theorem endCall_decRes (k : CallResult) (st : Byte) : (b.endCall k st).decRes = b.decRes := rfl
@[simp] theorem endCall_idleCnt (k : CallResult) (st : Byte) : (b.endCall k st).idleCnt = b.idleCnt := rfl
@[simp] theorem endCall_trState (k : CallResult) (st : Byte) : (b.endCall k st).trState = .hIdle := rfl
@[simp] theorem endCall_curId (k : CallResult) (st : Byte) : (b.endCall k st).curId = b.curId := rfl
@[simp] theorem endCall_busy (k : CallResult) (st : Byte) : (b.endCall k st).busy = false := rfl
@[simp] theorem endCall_done (k : CallResult) (st : Byte) : (b.endCall k st).done = true := rfl
@[simp] theorem endCall_result (k : CallResult) (st : Byte) : (b.endCall k st).result = k := rfl
@[simp] theorem endCall_respStatus (k : CallResult) (st : Byte) : (b.endCall k st).respStatus = st := rfl

@[simp] theorem raise_hdr0 (k : CallResult) : (b.raise k).hdr0 = b.hdr0 := rfl
@[simp] theorem raise_hdr1 (k : CallResult) : (b.raise k).hdr1 = b.hdr1 := rfl
@[simp] theorem raise_txPlen (k : CallResult) : (b.raise k).txPlen = b.txPlen := rfl
@[simp] theorem raise_txpay (k : CallResult) : (b.raise k).txpay = b.txpay := rfl
@[simp] theorem raise_encRun (k : CallResult) : (b.raise k).encRun = false := rfl
@[simp] theorem raise_encPh (k : CallResult) : (b.raise k).encPh = b.encPh := rfl
@[simp] theorem raise_encIdx (k : CallResult) : (b.raise k).encIdx = b.encIdx := rfl
@[simp] theorem raise_encN (k : CallResult) : (b.raise k).encN = b.encN := rfl
@[simp] theorem raise_decEsc (k : CallResult) : (b.raise k).decEsc = b.decEsc := rfl
@[simp] theorem raise_decErr (k : CallResult) : (b.raise k).decErr = b.decErr := rfl
@[simp] theorem raise_decLen (k : CallResult) : (b.raise k).decLen = b.decLen := rfl
@[simp] theorem raise_rxbuf (k : CallResult) : (b.raise k).rxbuf = b.rxbuf := rfl
@[simp] theorem raise_decRun (k : CallResult) : (b.raise k).decRun = false := rfl
@[simp] theorem raise_decRes (k : CallResult) : (b.raise k).decRes = b.decRes := rfl
@[simp] theorem raise_idleCnt (k : CallResult) : (b.raise k).idleCnt = b.idleCnt := rfl
@[simp] theorem raise_trState (k : CallResult) : (b.raise k).trState = .hIdle := rfl
@[simp] theorem raise_curId (k : CallResult) : (b.raise k).curId = b.curId := rfl
@[simp] theorem raise_busy (k : CallResult) : (b.raise k).busy = false := rfl
@[simp] theorem raise_done (k : CallResult) : (b.raise k).done = true := rfl
@[simp] theorem raise_result (k : CallResult) : (b.raise k).result = k := rfl
@[simp] theorem raise_respStatus (k : CallResult) : (b.raise k).respStatus = 0x00 := rfl

@[simp] theorem beginCall_hdr0 (id op : Byte) (n : Nat) : (b.beginCall id op n).hdr0 = id := rfl
@[simp] theorem beginCall_hdr1 (id op : Byte) (n : Nat) : (b.beginCall id op n).hdr1 = op := rfl
@[simp] theorem beginCall_txPlen (id op : Byte) (n : Nat) : (b.beginCall id op n).txPlen = n := rfl
@[simp] theorem beginCall_txpay (id op : Byte) (n : Nat) : (b.beginCall id op n).txpay = b.txpay := rfl
@[simp] theorem beginCall_encRun (id op : Byte) (n : Nat) : (b.beginCall id op n).encRun = true := rfl
@[simp] theorem beginCall_encPh (id op : Byte) (n : Nat) : (b.beginCall id op n).encPh = .data := rfl
@[simp] theorem beginCall_encIdx (id op : Byte) (n : Nat) : (b.beginCall id op n).encIdx = 0 := rfl
@[simp] theorem beginCall_encN (id op : Byte) (n : Nat) : (b.beginCall id op n).encN = 2 + n := rfl
@[simp] theorem beginCall_decEsc (id op : Byte) (n : Nat) : (b.beginCall id op n).decEsc = b.decEsc := rfl
@[simp] theorem beginCall_decErr (id op : Byte) (n : Nat) : (b.beginCall id op n).decErr = b.decErr := rfl
@[simp] theorem beginCall_decLen (id op : Byte) (n : Nat) : (b.beginCall id op n).decLen = b.decLen := rfl
@[simp] theorem beginCall_rxbuf (id op : Byte) (n : Nat) : (b.beginCall id op n).rxbuf = b.rxbuf := rfl
@[simp] theorem beginCall_decRun (id op : Byte) (n : Nat) : (b.beginCall id op n).decRun = b.decRun := rfl
@[simp] theorem beginCall_decRes (id op : Byte) (n : Nat) : (b.beginCall id op n).decRes = b.decRes := rfl
@[simp] theorem beginCall_idleCnt (id op : Byte) (n : Nat) : (b.beginCall id op n).idleCnt = b.idleCnt := rfl
@[simp] theorem beginCall_trState (id op : Byte) (n : Nat) : (b.beginCall id op n).trState = .hSend := rfl
@[simp] theorem beginCall_curId (id op : Byte) (n : Nat) : (b.beginCall id op n).curId = id := rfl
@[simp] theorem beginCall_busy (id op : Byte) (n : Nat) : (b.beginCall id op n).busy = true := rfl
@[simp] theorem beginCall_done (id op : Byte) (n : Nat) : (b.beginCall id op n).done = false := rfl
@[simp] theorem beginCall_result (id op : Byte) (n : Nat) : (b.beginCall id op n).result = .noResult := rfl
@[simp] theorem beginCall_respStatus (id op : Byte) (n : Nat) : (b.beginCall id op n).respStatus = 0x00 := rfl

/-! ### Conditional updates of an instance: the fields they never touch -/

@[simp] theorem append_hdr0 (v : Byte) : (b.append v).hdr0 = b.hdr0 := by
  unfold Block.append; split <;> (try split) <;> rfl
@[simp] theorem append_hdr1 (v : Byte) : (b.append v).hdr1 = b.hdr1 := by
  unfold Block.append; split <;> (try split) <;> rfl
@[simp] theorem append_txPlen (v : Byte) : (b.append v).txPlen = b.txPlen := by
  unfold Block.append; split <;> (try split) <;> rfl
@[simp] theorem append_txpay (v : Byte) : (b.append v).txpay = b.txpay := by
  unfold Block.append; split <;> (try split) <;> rfl
@[simp] theorem append_encRun (v : Byte) : (b.append v).encRun = b.encRun := by
  unfold Block.append; split <;> (try split) <;> rfl
@[simp] theorem append_encPh (v : Byte) : (b.append v).encPh = b.encPh := by
  unfold Block.append; split <;> (try split) <;> rfl
@[simp] theorem append_encIdx (v : Byte) : (b.append v).encIdx = b.encIdx := by
  unfold Block.append; split <;> (try split) <;> rfl
@[simp] theorem append_encN (v : Byte) : (b.append v).encN = b.encN := by
  unfold Block.append; split <;> (try split) <;> rfl
@[simp] theorem append_decEsc (v : Byte) : (b.append v).decEsc = b.decEsc := by
  unfold Block.append; split <;> (try split) <;> rfl
@[simp] theorem append_decRun (v : Byte) : (b.append v).decRun = b.decRun := by
  unfold Block.append; split <;> (try split) <;> rfl
@[simp] theorem append_decRes (v : Byte) : (b.append v).decRes = b.decRes := by
  unfold Block.append; split <;> (try split) <;> rfl
@[simp] theorem append_idleCnt (v : Byte) : (b.append v).idleCnt = b.idleCnt := by
  unfold Block.append; split <;> (try split) <;> rfl
@[simp] theorem append_trState (v : Byte) : (b.append v).trState = b.trState := by
  unfold Block.append; split <;> (try split) <;> rfl
@[simp] theorem append_curId (v : Byte) : (b.append v).curId = b.curId := by
  unfold Block.append; split <;> (try split) <;> rfl
@[simp] theorem append_busy (v : Byte) : (b.append v).busy = b.busy := by
  unfold Block.append; split <;> (try split) <;> rfl
@[simp] theorem append_done (v : Byte) : (b.append v).done = b.done := by
  unfold Block.append; split <;> (try split) <;> rfl
@[simp] theorem append_result (v : Byte) : (b.append v).result = b.result := by
  unfold Block.append; split <;> (try split) <;> rfl
@[simp] theorem append_respStatus (v : Byte) : (b.append v).respStatus = b.respStatus := by
  unfold Block.append; split <;> (try split) <;> rfl

@[simp] theorem countTick_hdr0 (n : Nat) : (b.countTick n).hdr0 = b.hdr0 := by
  unfold Block.countTick; split <;> rfl
@[simp] theorem countTick_hdr1 (n : Nat) : (b.countTick n).hdr1 = b.hdr1 := by
  unfold Block.countTick; split <;> rfl
@[simp] theorem countTick_txPlen (n : Nat) : (b.countTick n).txPlen = b.txPlen := by
  unfold Block.countTick; split <;> rfl
@[simp] theorem countTick_txpay (n : Nat) : (b.countTick n).txpay = b.txpay := by
  unfold Block.countTick; split <;> rfl
@[simp] theorem countTick_encRun (n : Nat) : (b.countTick n).encRun = b.encRun := by
  unfold Block.countTick; split <;> rfl
@[simp] theorem countTick_encPh (n : Nat) : (b.countTick n).encPh = b.encPh := by
  unfold Block.countTick; split <;> rfl
@[simp] theorem countTick_encIdx (n : Nat) : (b.countTick n).encIdx = b.encIdx := by
  unfold Block.countTick; split <;> rfl
@[simp] theorem countTick_encN (n : Nat) : (b.countTick n).encN = b.encN := by
  unfold Block.countTick; split <;> rfl
@[simp] theorem countTick_decEsc (n : Nat) : (b.countTick n).decEsc = b.decEsc := by
  unfold Block.countTick; split <;> rfl
@[simp] theorem countTick_decErr (n : Nat) : (b.countTick n).decErr = b.decErr := by
  unfold Block.countTick; split <;> rfl
@[simp] theorem countTick_decLen (n : Nat) : (b.countTick n).decLen = b.decLen := by
  unfold Block.countTick; split <;> rfl
@[simp] theorem countTick_rxbuf (n : Nat) : (b.countTick n).rxbuf = b.rxbuf := by
  unfold Block.countTick; split <;> rfl
@[simp] theorem countTick_decRun (n : Nat) : (b.countTick n).decRun = b.decRun := by
  unfold Block.countTick; split <;> rfl
@[simp] theorem countTick_decRes (n : Nat) : (b.countTick n).decRes = b.decRes := by
  unfold Block.countTick; split <;> rfl
@[simp] theorem countTick_trState (n : Nat) : (b.countTick n).trState = b.trState := by
  unfold Block.countTick; split <;> rfl
@[simp] theorem countTick_curId (n : Nat) : (b.countTick n).curId = b.curId := by
  unfold Block.countTick; split <;> rfl
@[simp] theorem countTick_busy (n : Nat) : (b.countTick n).busy = b.busy := by
  unfold Block.countTick; split <;> rfl
@[simp] theorem countTick_done (n : Nat) : (b.countTick n).done = b.done := by
  unfold Block.countTick; split <;> rfl
@[simp] theorem countTick_result (n : Nat) : (b.countTick n).result = b.result := by
  unfold Block.countTick; split <;> rfl
@[simp] theorem countTick_respStatus (n : Nat) : (b.countTick n).respStatus = b.respStatus := by
  unfold Block.countTick; split <;> rfl

@[simp] theorem portWrite_hdr0 (o : Bool) (c : Nat) (pw : Option (Nat × Byte)) : (b.portWrite o c pw).hdr0 = b.hdr0 := by
  unfold Block.portWrite; split <;> (try split) <;> rfl
@[simp] theorem portWrite_hdr1 (o : Bool) (c : Nat) (pw : Option (Nat × Byte)) : (b.portWrite o c pw).hdr1 = b.hdr1 := by
  unfold Block.portWrite; split <;> (try split) <;> rfl
@[simp] theorem portWrite_txPlen (o : Bool) (c : Nat) (pw : Option (Nat × Byte)) : (b.portWrite o c pw).txPlen = b.txPlen := by
  unfold Block.portWrite; split <;> (try split) <;> rfl
@[simp] theorem portWrite_encRun (o : Bool) (c : Nat) (pw : Option (Nat × Byte)) : (b.portWrite o c pw).encRun = b.encRun := by
  unfold Block.portWrite; split <;> (try split) <;> rfl
@[simp] theorem portWrite_encPh (o : Bool) (c : Nat) (pw : Option (Nat × Byte)) : (b.portWrite o c pw).encPh = b.encPh := by
  unfold Block.portWrite; split <;> (try split) <;> rfl
@[simp] theorem portWrite_encIdx (o : Bool) (c : Nat) (pw : Option (Nat × Byte)) : (b.portWrite o c pw).encIdx = b.encIdx := by
  unfold Block.portWrite; split <;> (try split) <;> rfl
@[simp] theorem portWrite_encN (o : Bool) (c : Nat) (pw : Option (Nat × Byte)) : (b.portWrite o c pw).encN = b.encN := by
  unfold Block.portWrite; split <;> (try split) <;> rfl
@[simp] theorem portWrite_decEsc (o : Bool) (c : Nat) (pw : Option (Nat × Byte)) : (b.portWrite o c pw).decEsc = b.decEsc := by
  unfold Block.portWrite; split <;> (try split) <;> rfl
@[simp] theorem portWrite_decErr (o : Bool) (c : Nat) (pw : Option (Nat × Byte)) : (b.portWrite o c pw).decErr = b.decErr := by
  unfold Block.portWrite; split <;> (try split) <;> rfl
@[simp] theorem portWrite_decLen (o : Bool) (c : Nat) (pw : Option (Nat × Byte)) : (b.portWrite o c pw).decLen = b.decLen := by
  unfold Block.portWrite; split <;> (try split) <;> rfl
@[simp] theorem portWrite_rxbuf (o : Bool) (c : Nat) (pw : Option (Nat × Byte)) : (b.portWrite o c pw).rxbuf = b.rxbuf := by
  unfold Block.portWrite; split <;> (try split) <;> rfl
@[simp] theorem portWrite_decRun (o : Bool) (c : Nat) (pw : Option (Nat × Byte)) : (b.portWrite o c pw).decRun = b.decRun := by
  unfold Block.portWrite; split <;> (try split) <;> rfl
@[simp] theorem portWrite_decRes (o : Bool) (c : Nat) (pw : Option (Nat × Byte)) : (b.portWrite o c pw).decRes = b.decRes := by
  unfold Block.portWrite; split <;> (try split) <;> rfl
@[simp] theorem portWrite_idleCnt (o : Bool) (c : Nat) (pw : Option (Nat × Byte)) : (b.portWrite o c pw).idleCnt = b.idleCnt := by
  unfold Block.portWrite; split <;> (try split) <;> rfl
@[simp] theorem portWrite_trState (o : Bool) (c : Nat) (pw : Option (Nat × Byte)) : (b.portWrite o c pw).trState = b.trState := by
  unfold Block.portWrite; split <;> (try split) <;> rfl
@[simp] theorem portWrite_curId (o : Bool) (c : Nat) (pw : Option (Nat × Byte)) : (b.portWrite o c pw).curId = b.curId := by
  unfold Block.portWrite; split <;> (try split) <;> rfl
@[simp] theorem portWrite_busy (o : Bool) (c : Nat) (pw : Option (Nat × Byte)) : (b.portWrite o c pw).busy = b.busy := by
  unfold Block.portWrite; split <;> (try split) <;> rfl
@[simp] theorem portWrite_done (o : Bool) (c : Nat) (pw : Option (Nat × Byte)) : (b.portWrite o c pw).done = b.done := by
  unfold Block.portWrite; split <;> (try split) <;> rfl
@[simp] theorem portWrite_result (o : Bool) (c : Nat) (pw : Option (Nat × Byte)) : (b.portWrite o c pw).result = b.result := by
  unfold Block.portWrite; split <;> (try split) <;> rfl
@[simp] theorem portWrite_respStatus (o : Bool) (c : Nat) (pw : Option (Nat × Byte)) : (b.portWrite o c pw).respStatus = b.respStatus := by
  unfold Block.portWrite; split <;> (try split) <;> rfl

/-! ### Updates of the system -/

@[simp] theorem setBlock_params : (s.setBlock r b).params = s.params := by cases r <;> rfl
@[simp] theorem setBlock_disp : (s.setBlock r b).disp = s.disp := by cases r <;> rfl
@[simp] theorem setBlock_radio : (s.setBlock r b).radio = s.radio := by cases r <;> rfl
@[simp] theorem setBlock_turn : (s.setBlock r b).turn = s.turn := by cases r <;> rfl
@[simp] theorem setBlock_script : (s.setBlock r b).script = s.script := by cases r <;> rfl
@[simp] theorem setBlock_freeCtr : (s.setBlock r b).freeCtr = s.freeCtr := by cases r <;> rfl
@[simp] theorem setBlock_hd : (s.setBlock r b).hd = s.hd := by cases r <;> rfl
@[simp] theorem setBlock_dh : (s.setBlock r b).dh = s.dh := by cases r <;> rfl
@[simp] theorem setBlock_block : (s.setBlock r b).block r = b := by cases r <;> rfl
@[simp] theorem setBlock_block_other : (s.setBlock r b).block (otherRole r) = s.block (otherRole r) := by cases r <;> rfl
@[simp] theorem setBlock_stream (r' : Role) : (s.setBlock r b).stream r' = s.stream r' := by cases r <;> cases r' <;> rfl
@[simp] theorem setBlock_host_host : (s.setBlock .host b).host = b := rfl
@[simp] theorem setBlock_host_device : (s.setBlock .host b).device = s.device := rfl
@[simp] theorem setBlock_device_host : (s.setBlock .device b).host = s.host := rfl
@[simp] theorem setBlock_device_device : (s.setBlock .device b).device = b := rfl
@[simp] theorem block_host : s.block .host = s.host := rfl
@[simp] theorem block_device : s.block .device = s.device := rfl
@[simp] theorem stream_host : s.stream .host = s.hd := rfl
@[simp] theorem stream_device : s.stream .device = s.dh := rfl
@[simp] theorem otherRole_host : otherRole .host = .device := rfl
@[simp] theorem otherRole_device : otherRole .device = .host := rfl
@[simp] theorem capTx_host : s.capTx .host = s.params.capTxPay := rfl
@[simp] theorem capTx_device : s.capTx .device = Config.devCapTx := rfl

@[simp] theorem setStream_params (q : List Byte) : (s.setStream r q).params = s.params := by cases r <;> rfl
@[simp] theorem setStream_disp (q : List Byte) : (s.setStream r q).disp = s.disp := by cases r <;> rfl
@[simp] theorem setStream_radio (q : List Byte) : (s.setStream r q).radio = s.radio := by cases r <;> rfl
@[simp] theorem setStream_turn (q : List Byte) : (s.setStream r q).turn = s.turn := by cases r <;> rfl
@[simp] theorem setStream_script (q : List Byte) : (s.setStream r q).script = s.script := by cases r <;> rfl
@[simp] theorem setStream_freeCtr (q : List Byte) : (s.setStream r q).freeCtr = s.freeCtr := by cases r <;> rfl
@[simp] theorem setStream_host (q : List Byte) : (s.setStream r q).host = s.host := by cases r <;> rfl
@[simp] theorem setStream_device (q : List Byte) : (s.setStream r q).device = s.device := by cases r <;> rfl
@[simp] theorem setStream_stream (q : List Byte) : (s.setStream r q).stream r = q := by cases r <;> rfl
@[simp] theorem setStream_stream_other (q : List Byte) :
    (s.setStream r q).stream (otherRole r) = s.stream (otherRole r) := by cases r <;> rfl
@[simp] theorem setStream_block (r' : Role) (q : List Byte) : (s.setStream r q).block r' = s.block r' := by
  cases r <;> cases r' <;> rfl

@[simp] theorem emit_params (v : Byte) : (s.emit r v).params = s.params := by
  unfold State.emit; split <;> simp
@[simp] theorem emit_disp (v : Byte) : (s.emit r v).disp = s.disp := by
  unfold State.emit; split <;> simp
@[simp] theorem emit_radio (v : Byte) : (s.emit r v).radio = s.radio := by
  unfold State.emit; split <;> simp
@[simp] theorem emit_turn (v : Byte) : (s.emit r v).turn = s.turn := by
  unfold State.emit; split <;> simp
@[simp] theorem emit_script (v : Byte) : (s.emit r v).script = s.script := by
  unfold State.emit; split <;> simp
@[simp] theorem emit_freeCtr (v : Byte) : (s.emit r v).freeCtr = s.freeCtr := by
  unfold State.emit; split <;> simp
@[simp] theorem emit_host (v : Byte) : (s.emit r v).host = s.host := by
  unfold State.emit; split <;> simp
@[simp] theorem emit_device (v : Byte) : (s.emit r v).device = s.device := by
  unfold State.emit; split <;> simp
@[simp] theorem emit_block (r' : Role) (v : Byte) : (s.emit r v).block r' = s.block r' := by
  unfold State.emit; split <;> simp
@[simp] theorem emit_stream_other (v : Byte) : (s.emit r v).stream (otherRole r) = s.stream (otherRole r) := by
  unfold State.emit; split <;> simp
theorem emit_stream_room (v : Byte) (h : (s.stream r).length < s.params.chDepth) :
    (s.emit r v).stream r = s.stream r ++ [v] := by simp [State.emit, h]
theorem emit_stream_full (v : Byte) (h : ¬ (s.stream r).length < s.params.chDepth) :
    (s.emit r v).stream r = s.stream r := by simp [State.emit, h]

@[simp] theorem takeFront_params : (s.takeFront r).params = s.params := by simp [State.takeFront]
@[simp] theorem takeFront_disp : (s.takeFront r).disp = s.disp := by simp [State.takeFront]
@[simp] theorem takeFront_radio : (s.takeFront r).radio = s.radio := by simp [State.takeFront]
@[simp] theorem takeFront_turn : (s.takeFront r).turn = s.turn := by simp [State.takeFront]
@[simp] theorem takeFront_script : (s.takeFront r).script = s.script := by simp [State.takeFront]
@[simp] theorem takeFront_freeCtr : (s.takeFront r).freeCtr = s.freeCtr := by simp [State.takeFront]
@[simp] theorem takeFront_host : (s.takeFront r).host = s.host := by simp [State.takeFront]
@[simp] theorem takeFront_device : (s.takeFront r).device = s.device := by simp [State.takeFront]
@[simp] theorem takeFront_block (r' : Role) : (s.takeFront r).block r' = s.block r' := by simp [State.takeFront]

end Sys2Proof.Machine
end

