-- ==== Sys2Proof/Laws/Ops.lean ====
section
/-! SUPPORT. For each shared operation, once, everything it can do when it answers a next state. Later proofs cite
these and do not unfold the operations. -/

namespace Sys2Proof.Machine

/-- A chain answers a next state only through the next state of its first part. -/
theorem andThen_next {o : Out} {k : State → Out} {t : State} (h : andThen o k = .next t) :
    ∃ u, o = .next u ∧ k u = .next t := by
  cases o with
  | next u => exact ⟨u, rfl, h⟩
  | fault f => cases h
  | refused f => cases h

@[simp] theorem andThen_of_next (u : State) (k : State → Out) : andThen (.next u) k = k u := rfl

/-- The writes of an Append, by case (41_decoder R155). -/
theorem append_cases (b : Block) (v : Byte) :
    (b.decErr = true ∧ b.append v = b) ∨
    (b.decErr = false ∧ b.decLen = Config.capRx ∧ b.append v = { b with decErr := true }) ∨
    (b.decErr = false ∧ b.decLen ≠ Config.capRx ∧
      b.append v = { b with rxbuf := Memory.write b.rxbuf b.decLen v, decLen := b.decLen + 1 }) := by
  unfold Block.append errAfterAppend
  split
  · next h => exact .inl ⟨h, rfl⟩
  · next h =>
    split
    · next hl => exact .inr (.inl ⟨by simpa using h, hl, by simp [hl]⟩)
    · next hl => exact .inr (.inr ⟨by simpa using h, hl, rfl⟩)

/-- A port write changes at most one byte of `TXPAY`, below the capacity. -/
theorem portWrite_cases (b : Block) (o : Bool) (c : Nat) (pw : Option (Nat × Byte)) :
    b.portWrite o c pw = b ∨
    ∃ a v, pw = some (a, v) ∧ o = true ∧ a < c ∧
      b.portWrite o c pw = { b with txpay := Memory.write b.txpay a v } := by
  unfold Block.portWrite
  split
  · exact .inl rfl
  · next a v =>
    split
    · next h => exact .inr ⟨a, v, rfl, h.1, h.2, rfl⟩
    · exact .inl rfl

theorem encLitOn_next {r : Role} {v : Byte} {s t : State} (h : encLitOn r v s = .next t) :
    (s.block r).encRun = true ∧ (s.block r).encPh = .data ∧ (s.block r).encIdx < (s.block r).encN ∧
    (s.block r).frameByte (s.block r).encIdx = some v ∧ v ≠ Config.esc ∧
    t = (s.setBlock r { s.block r with encIdx := (s.block r).encIdx + 1 }).emit r v := by
  unfold encLitOn at h
  dsimp only at h
  split at h
  · next c => cases h; exact ⟨c.1, c.2.1, c.2.2.1, c.2.2.2.1, c.2.2.2.2, rfl⟩
  · cases h

theorem encStuff1On_next {r : Role} {s t : State} (h : encStuff1On r s = .next t) :
    (s.block r).encRun = true ∧ (s.block r).encPh = .data ∧ (s.block r).encIdx < (s.block r).encN ∧
    (s.block r).frameByte (s.block r).encIdx = some Config.esc ∧
    t = (s.setBlock r { s.block r with encPh := .stuff2 }).emit r Config.esc := by
  unfold encStuff1On at h
  dsimp only at h
  split at h
  · next c => cases h; exact ⟨c.1, c.2.1, c.2.2.1, c.2.2.2, rfl⟩
  · cases h

theorem encStuff2On_next {r : Role} {s t : State} (h : encStuff2On r s = .next t) :
    (s.block r).encRun = true ∧ (s.block r).encPh = .stuff2 ∧
    t = (s.setBlock r { s.block r with encIdx := (s.block r).encIdx + 1, encPh := .data }).emit r Config.esc := by
  unfold encStuff2On at h
  dsimp only at h
  split at h
  · next c => cases h; exact ⟨c.1, c.2, rfl⟩
  · cases h

theorem encTerm1On_next {r : Role} {s t : State} (h : encTerm1On r s = .next t) :
    (s.block r).encRun = true ∧ (s.block r).encPh = .data ∧ (s.block r).encIdx = (s.block r).encN ∧
    t = (s.setBlock r { s.block r with encPh := .term2 }).emit r Config.esc := by
  unfold encTerm1On at h
  dsimp only at h
  split at h
  · next c => cases h; exact ⟨c.1, c.2.1, c.2.2, rfl⟩
  · cases h

theorem encTerm2On_next {r : Role} {s t : State} (h : encTerm2On r s = .next t) :
    (s.block r).encRun = true ∧ (s.block r).encPh = .term2 ∧
    t = (s.setBlock r { s.block r with encPh := .done, encRun := false }).emit r Config.endMark := by
  unfold encTerm2On at h
  dsimp only at h
  split at h
  · next c => cases h; exact ⟨c.1, c.2, rfl⟩
  · cases h

/-- One accepted byte of an encoder: which of the five operations it was, what it wrote, what it sent. -/
theorem encoderOp_next {r : Role} {s t : State} (h : encoderOp r s = .next t) :
    (∃ v, encLitOn r v s = .next t) ∨ encStuff1On r s = .next t ∨ encStuff2On r s = .next t ∨
    encTerm1On r s = .next t ∨ encTerm2On r s = .next t := by
  unfold encoderOp at h
  split at h
  · cases h
  · split at h
    · unfold encoderRun at h
      split at h
      · exact .inl ⟨_, h⟩
      · exact .inr (.inl h)
      · exact .inr (.inr (.inl h))
      · exact .inr (.inr (.inr (.inl h)))
      · exact .inr (.inr (.inr (.inr h)))
      · cases h
    · cases h

/-- One accepted byte changes only the encoder's position and the instance's own stream. -/
theorem encoderOp_writes {r : Role} {s t : State} (h : encoderOp r s = .next t) :
    (s.block r).encRun = true ∧
    ∃ run ph idx v, t = (s.setBlock r { s.block r with encRun := run, encPh := ph, encIdx := idx }).emit r v ∧
      ((run = true ∧ ph ≠ .done) ∨ (run = false ∧ ph = .done)) := by
  rcases encoderOp_next h with ⟨v, h⟩ | h | h | h | h
  · obtain ⟨c1, c2, -, -, -, rfl⟩ := encLitOn_next h
    refine ⟨c1, true, .data, (s.block r).encIdx + 1, v, ?_, .inl ⟨rfl, by decide⟩⟩
    rw [← c1, ← c2]
  · obtain ⟨c1, c2, -, -, rfl⟩ := encStuff1On_next h
    refine ⟨c1, true, .stuff2, (s.block r).encIdx, Config.esc, ?_, .inl ⟨rfl, by decide⟩⟩
    rw [← c1]
  · obtain ⟨c1, c2, rfl⟩ := encStuff2On_next h
    refine ⟨c1, true, .data, (s.block r).encIdx + 1, Config.esc, ?_, .inl ⟨rfl, by decide⟩⟩
    rw [← c1]
  · obtain ⟨c1, c2, -, rfl⟩ := encTerm1On_next h
    refine ⟨c1, true, .term2, (s.block r).encIdx, Config.esc, ?_, .inl ⟨rfl, by decide⟩⟩
    rw [← c1]
  · obtain ⟨c1, c2, rfl⟩ := encTerm2On_next h
    exact ⟨c1, false, .done, (s.block r).encIdx, Config.endMark, rfl, .inr ⟨rfl, rfl⟩⟩

theorem decEscOn_next {r : Role} {s t : State} (h : decEscOn r s = .next t) :
    (s.block r).decRun = true ∧ (s.block r).decEsc = false ∧
    t = s.setBlock r { s.block r with decEsc := true, idleCnt := 0 } := by
  unfold decEscOn at h
  dsimp only at h
  split at h
  · next c => cases h; exact ⟨c.1, c.2, by simp [c.2, escAfter, Block.restartTimer]⟩
  · cases h

theorem decDataOn_next {r : Role} {v : Byte} {s t : State} (h : decDataOn r v s = .next t) :
    (s.block r).decRun = true ∧ (s.block r).decEsc = false ∧ v ≠ Config.esc ∧
    t = s.setBlock r ((s.block r).append v).restartTimer := by
  unfold decDataOn at h
  dsimp only at h
  split at h
  · next c => cases h; exact ⟨c.1, c.2.1, c.2.2, rfl⟩
  · cases h

theorem decEndOn_next {r : Role} {s t : State} (h : decEndOn r s = .next t) :
    (s.block r).decRun = true ∧ (s.block r).decEsc = true ∧
    t = s.setBlock r { s.block r with
      decEsc := false, decRun := false, decRes := resAtEnd (s.block r).decErr, idleCnt := 0 } := by
  unfold decEndOn at h
  dsimp only at h
  split at h
  · next c => cases h; exact ⟨c.1, c.2, by simp [c.2, escAfter, Block.restartTimer]⟩
  · cases h

theorem decLitescOn_next {r : Role} {s t : State} (h : decLitescOn r s = .next t) :
    (s.block r).decRun = true ∧ (s.block r).decEsc = true ∧
    t = s.setBlock r ({ s.block r with decEsc := false }.append Config.esc).restartTimer := by
  unfold decLitescOn at h
  dsimp only at h
  split at h
  · next c => cases h; exact ⟨c.1, c.2, by simp [c.2, escAfter]⟩
  · cases h

theorem decBadescOn_next {r : Role} {v : Byte} {s t : State} (h : decBadescOn r v s = .next t) :
    (s.block r).decRun = true ∧ (s.block r).decEsc = true ∧ v ≠ Config.endMark ∧ v ≠ Config.esc ∧
    t = s.setBlock r { s.block r with decEsc := false, decErr := true, idleCnt := 0 } := by
  unfold decBadescOn at h
  dsimp only at h
  split at h
  · next c => cases h; exact ⟨c.1, c.2.1, c.2.2.1, c.2.2.2, by simp [c.2.1, escAfter, Block.restartTimer]⟩
  · cases h

theorem decEodOn_next {r : Role} {s t : State} (h : decEodOn r s = .next t) :
    r = .host ∧ (s.block r).decRun = true ∧ (s.block r).idleCnt = s.params.nIdle ∧
    t = s.setBlock r { s.block r with decRun := false, decRes := resAtEod (s.block r).decErr } := by
  unfold decEodOn at h
  dsimp only at h
  split at h
  · next c => cases h; exact ⟨c.1, c.2.1, c.2.2, rfl⟩
  · cases h

/-- One delivered byte: which of the five operations it was. -/
theorem decoderOp_next {r : Role} {v : Byte} {s t : State} (h : decoderOp r v s = .next t) :
    (v = Config.esc ∧ decEscOn r s = .next t) ∨ decDataOn r v s = .next t ∨
    (v = Config.endMark ∧ decEndOn r s = .next t) ∨ (v = Config.esc ∧ decLitescOn r s = .next t) ∨
    decBadescOn r v s = .next t := by
  unfold decoderOp decodeStream at h
  split at h
  · split at h
    · next hv => exact .inr (.inr (.inl ⟨hv, h⟩))
    · split at h
      · next hv => exact .inr (.inr (.inr (.inl ⟨hv, h⟩)))
      · exact .inr (.inr (.inr (.inr h)))
  · split at h
    · next hv => exact .inl ⟨hv, h⟩
    · exact .inr (.inl h)

/-- A decode that is running answers every byte (41_decoder R152). -/
theorem decoderOp_total {r : Role} (v : Byte) {s : State} (h : (s.block r).decRun = true) :
    ∃ t, decoderOp r v s = .next t := by
  unfold decoderOp decodeStream
  split
  · next he =>
    split
    · exact ⟨_, by simp [decoderRun, decEndOn, h, he]; rfl⟩
    · next h1 =>
      split
      · exact ⟨_, by simp [decoderRun, decLitescOn, h, he]; rfl⟩
      · next h2 => exact ⟨_, by simp [decoderRun, decBadescOn, h, he, h1, h2]; rfl⟩
  · next he =>
    have he : (s.block r).decEsc = false := by simpa using he
    split
    · exact ⟨_, by simp [decoderRun, decEscOn, h, he]; rfl⟩
    · next h1 => exact ⟨_, by simp [decoderRun, decDataOn, h, he, h1]; rfl⟩

/-- The tests of HOST.VALIDATE on a frame, by case (42_host_correlator R189). -/
theorem validateFrame_next {s t : State} (h : validateFrame s = .next t) :
    (s.host.decLen < 2 ∧ t = { s with host := s.host.raise .shortFrame }) ∨
    (2 ≤ s.host.decLen ∧ ∃ id, Memory.read s.host.rxbuf 0 = some id ∧
      ((id ≠ s.host.curId ∧ t = { s with host := s.host.raise .desync }) ∨
       (id = s.host.curId ∧ Memory.read s.host.rxbuf 1 = some 0x00 ∧
         t = { s with host := s.host.endCall .ok 0x00 }) ∨
       (id = s.host.curId ∧ ∃ st, Memory.read s.host.rxbuf 1 = some st ∧ st ≠ 0x00 ∧
         t = { s with host := s.host.endCall .appStatus st }))) := by
  unfold validateFrame at h
  dsimp only at h
  split at h
  · next hl => cases h; exact .inl ⟨hl, rfl⟩
  · next hl =>
    refine .inr ⟨by omega, ?_⟩
    split at h
    · cases h
    · next id hid =>
      refine ⟨id, hid, ?_⟩
      split at h
      · next hne => cases h; exact .inl ⟨hne, rfl⟩
      · next heq =>
        have heq : id = s.host.curId := by simpa using heq
        split at h
        · cases h
        · next st hst =>
          split at h
          · next h0 => cases h; exact .inr (.inl ⟨heq, by rw [hst, h0], rfl⟩)
          · next h0 => cases h; exact .inr (.inr ⟨heq, st, hst, h0, rfl⟩)

/-- HOST.VALIDATE, by case (42_host_correlator R189). -/
theorem validateOp_next {s t : State} (h : validateOp s = .next t) :
    s.host.trState = .hRecv ∧ s.host.decRun = false ∧
    ((s.host.decRes = .timeout ∧ t = { s with host := s.host.raise .timeout }) ∨
     (s.host.decRes = .framingError ∧ t = { s with host := s.host.raise .framingError }) ∨
     (s.host.decRes = .frameOk ∧ validateFrame s = .next t)) := by
  unfold validateOp at h
  dsimp only at h
  split at h
  · next c =>
    refine ⟨c.1, c.2, ?_⟩
    split at h
    · next hr => cases h; exact .inl ⟨hr, rfl⟩
    · next hr => cases h; exact .inr (.inl ⟨hr, rfl⟩)
    · next hr => exact .inr (.inr ⟨hr, h⟩)
    · cases h
  · cases h

/-- A call that ends is idle again, with its result, and nothing outside the HOST instance has changed. -/
theorem validateOp_ends {s t : State} (h : validateOp s = .next t) :
    ∃ b, t = { s with host := b } ∧ b.trState = .hIdle ∧ b.busy = false ∧ b.done = true := by
  obtain ⟨-, -, ⟨-, rfl⟩ | ⟨-, rfl⟩ | ⟨-, h⟩⟩ := validateOp_next h
  · exact ⟨_, rfl, rfl, rfl, rfl⟩
  · exact ⟨_, rfl, rfl, rfl, rfl⟩
  · rcases validateFrame_next h with ⟨-, rfl⟩ | ⟨-, id, -, ⟨-, rfl⟩ | ⟨-, -, rfl⟩ | ⟨-, st, -, -, rfl⟩⟩
    all_goals exact ⟨_, rfl, rfl, rfl, rfl⟩

/-- What the end of a device decode does, by case (43_device_responder R212 to R214). -/
theorem afterDecode_next {s t : State} (h : afterDecode s = .next t) :
    s.device.trState = .dRecv ∧ s.device.decRun = false ∧
    ((s.device.decRes = .framingError ∧ t = { s with device := s.device.decStart }) ∨
     (s.device.decRes = .frameOk ∧ s.device.decLen < 2 ∧ t = { s with device := s.device.decStart }) ∨
     (s.device.decRes = .frameOk ∧ 2 ≤ s.device.decLen ∧ ∃ id, Memory.read s.device.rxbuf 0 = some id ∧
       t = { s with device := { s.device with curId := id, trState := .dDispatch } })) := by
  unfold afterDecode at h
  split at h
  · unfold discardOp at h
    split at h
    · next c => cases h; exact ⟨c.1, c.2.1, .inl ⟨c.2.2, rfl⟩⟩
    · cases h
  · split at h
    · unfold discardShortOp at h
      split at h
      · next c => cases h; exact ⟨c.1, c.2.1, .inr (.inl ⟨c.2.2.1, c.2.2.2, rfl⟩)⟩
      · cases h
    · unfold dispatchOp at h
      split at h
      · next c =>
        split at h
        · cases h
        · next id hid => cases h; exact ⟨c.1, c.2.1, .inr (.inr ⟨c.2.2.1, c.2.2.2, id, hid, rfl⟩)⟩
      · cases h
  · cases h
  · cases h

/-- What a service by the dispatcher does (45_dispatcher_interface R230). -/
theorem serve_next {op : String} {f : Dispatcher → List Byte → Bool → Reply} {s t : State}
    (h : serve op f s = .next t) :
    s.device.trState = .dDispatch ∧ s.disp.answer = none ∧ ∃ p, s.device.payload = some p ∧
    t = { s with
      disp := { (f s.disp p (Config.freeChoice s.freeCtr)).disp with
        answer := some ((f s.disp p (Config.freeChoice s.freeCtr)).status,
          (f s.disp p (Config.freeChoice s.freeCtr)).payload.length) }
      device := { s.device with
        txpay := Memory.writeList s.device.txpay 0 (f s.disp p (Config.freeChoice s.freeCtr)).payload }
      radio := s.radio ++ (f s.disp p (Config.freeChoice s.freeCtr)).job.toList
      freeCtr := s.freeCtr + 1 } := by
  unfold serve at h
  split at h
  · next c =>
    split at h
    · cases h
    · next p hp =>
      cases h
      exact ⟨by simpa [Block.dispReq] using c.1, c.2, p, hp, rfl⟩
  · cases h

end Sys2Proof.Machine
end

