-- ==== Sys2Proof/Laws/Step.lean ====
section
/-! SUPPORT. What a cycle, a service of the dispatcher and a selection can be, once each. -/

namespace Sys2Proof.Machine

/-- While no encode runs, `tx_data` shows nothing (log 37). -/
@[simp] theorem txData_stopped {b : Block} (h : b.encRun = false) : b.txData = none := by
  simp [Block.txData, h]

/-- `cmd_plen` is offered from two decoded bytes on (10_state R46). -/
@[simp] theorem cmdPlen_offered {b : Block} (h : 2 ≤ b.decLen) : b.cmdPlen = some (b.decLen - 2) := by
  simp [Block.cmdPlen, h]

/-- A write through a closed port changes nothing (20_memory R73). -/
@[simp] theorem portWrite_closed (b : Block) (cap : Nat) (pw : Option (Nat × Byte)) : b.portWrite false cap pw = b := by
  cases pw <;> simp [Block.portWrite]

/-- A HOST cycle is its port write, then the cycle without one (log 23). -/
theorem hostCycle_portWrite (i : HostIn) (s : State) :
    hostCycle i s = hostCycle { i with pw := none } (clientWrite i s) := by
  obtain ⟨rst, chFail, txReady, rxValid, tick, start, pw, rd⟩ := i
  rcases pw with _ | ⟨a, v⟩
  · rfl
  · cases rst
    · by_cases h : (!s.host.busy) = true ∧ a < s.params.capTxPay <;>
        (simp only [hostCycle, clientWrite, Block.portWrite, h]; rfl)
    · rfl

/-- A DEVICE cycle is its port write, then the cycle without one (log 23). -/
theorem deviceCycle_portWrite (i : DevIn) (s : State) :
    deviceCycle i s = deviceCycle { i with pw := none } (dispatcherWrite i s) := by
  obtain ⟨rst, txReady, rxValid, ack, pw, rd⟩ := i
  rcases pw with _ | ⟨a, v⟩
  · rfl
  · cases rst
    · by_cases h : s.device.dispReq = true ∧ a < Config.devCapTx <;>
        (simp only [deviceCycle, dispatcherWrite, Block.portWrite, h]; rfl)
    · rfl

/-- The operation a HOST cycle selects, by the state it is in (42_host_correlator R180). -/
theorem hostSelect_some {i : HostIn} {s : State} {op : Instr} (h : hostSelect i s = some op) :
    (s.host.trState = .hIdle ∧ ∃ id o n, i.start = some (id, o, n) ∧ op = .hostCall id o n) ∨
    (s.host.trState = .hSend ∧ i.chFail = true ∧ op = .hostChfailSend) ∨
    (s.host.trState = .hSend ∧ i.chFail = false ∧ i.txReady = true ∧ op = .hostSend) ∨
    (s.host.trState = .hRecv ∧ i.chFail = true ∧ op = .hostChfailRecv) ∨
    (s.host.trState = .hRecv ∧ i.chFail = false ∧
      ∃ v, delivered s .host i.rxValid i.chFail i.rst = some v ∧ op = .hostRecv v) ∨
    (s.host.trState = .hRecv ∧ i.chFail = false ∧ delivered s .host i.rxValid i.chFail i.rst = none ∧
      i.tick = true ∧ s.host.decRun = true ∧ s.host.idleCnt + 1 = s.params.nIdle ∧ op = .hostTimeout) := by
  unfold hostSelect at h
  split at h
  · next ht =>
    obtain ⟨⟨id, o, n⟩, hs, rfl⟩ := Option.map_eq_some_iff.1 h
    exact .inl ⟨ht, id, o, n, hs, rfl⟩
  · next ht =>
    split at h
    · next hc => cases h; exact .inr (.inl ⟨ht, hc, rfl⟩)
    · next hc =>
      split at h
      · next hr =>
        cases h
        exact .inr (.inr (.inl ⟨ht, by simpa using hc, by simp at hr; exact hr.2, rfl⟩))
      · cases h
  · next ht =>
    split at h
    · next hc => cases h; exact .inr (.inr (.inr (.inl ⟨ht, hc, rfl⟩)))
    · next hc =>
      have hc : i.chFail = false := by simpa using hc
      split at h
      · next v hv => cases h; exact .inr (.inr (.inr (.inr (.inl ⟨ht, hc, v, hv, rfl⟩))))
      · next hv =>
        split at h
        · next c => cases h; exact .inr (.inr (.inr (.inr (.inr ⟨ht, hc, hv, c.1, c.2.1, c.2.2, rfl⟩))))
        · cases h
  · cases h
  · cases h
  · cases h

/-- The operation a DEVICE cycle selects, by the state it is in (43_device_responder R210). -/
theorem deviceSelect_some {i : DevIn} {s : State} {op : Instr} (h : deviceSelect i s = some op) :
    (s.device.trState = .dRecv ∧ ∃ v, delivered s .device i.rxValid false i.rst = some v ∧ op = .devRecv v) ∨
    (s.device.trState = .dDispatch ∧ ∃ st n, ackPulse i s = some (st, n) ∧ op = .devRespond st n) ∨
    (s.device.trState = .dSend ∧ i.txReady = true ∧ op = .devSend) := by
  unfold deviceSelect at h
  split at h
  · next ht =>
    obtain ⟨v, hv, rfl⟩ := Option.map_eq_some_iff.1 h
    exact .inl ⟨ht, v, hv, rfl⟩
  · next ht =>
    obtain ⟨⟨st, n⟩, hs, rfl⟩ := Option.map_eq_some_iff.1 h
    exact .inr (.inl ⟨ht, st, n, hs, rfl⟩)
  · next ht =>
    split at h
    · next hr => cases h; exact .inr (.inr ⟨ht, by simp at hr; exact hr.2, rfl⟩)
    · cases h
  · cases h
  · cases h
  · cases h

/-- What a HOST cycle does. -/
theorem hostCycle_next {i : HostIn} {s t : State} (h : hostCycle i s = .next t) :
    (i.rst = true ∧ t = resetHost s) ∨
    (i.rst = false ∧ s.host.readFault i.rd = none ∧
      ((hostSelect i s = none ∧ t = hostTick i (clientWrite i s)) ∨
       ∃ op u, hostSelect i s = some op ∧ exec op (hostBefore op (clientWrite i s)) = .next u ∧
         hostAfter op u = .next t)) := by
  unfold hostCycle at h
  split at h
  · next hr => cases h; exact .inl ⟨hr, rfl⟩
  · next hr =>
    refine .inr ⟨by simpa using hr, ?_⟩
    split at h
    · cases h
    · next hf =>
      refine ⟨hf, ?_⟩
      split at h
      · next hs => cases h; exact .inl ⟨hs, rfl⟩
      · next op hs =>
        obtain ⟨u, hu, ht⟩ := andThen_next h
        exact .inr ⟨op, u, hs, hu, ht⟩

/-- What a DEVICE cycle does. -/
theorem deviceCycle_next {i : DevIn} {s t : State} (h : deviceCycle i s = .next t) :
    (i.rst = true ∧ t = resetDevice s) ∨
    (i.rst = false ∧ s.device.readFault i.rd = none ∧
      ((deviceSelect i s = none ∧ t = dispatcherWrite i s) ∨
       ∃ op, deviceSelect i s = some op ∧ exec op (deviceBefore op (dispatcherWrite i s)) = .next t)) := by
  unfold deviceCycle at h
  split at h
  · next hr => cases h; exact .inl ⟨hr, rfl⟩
  · next hr =>
    refine .inr ⟨by simpa using hr, ?_⟩
    split at h
    · cases h
    · next hf =>
      refine ⟨hf, ?_⟩
      split at h
      · next hs => cases h; exact .inl ⟨hs, rfl⟩
      · next op hs => exact .inr ⟨op, hs, h⟩

/-- What a service of the dispatcher does: nothing, or the operation of frame byte 1. -/
theorem dispatcherMove_next {s t : State} (h : dispatcherMove s = .next t) :
    t = s ∨
    (s.device.dispReq = true ∧ s.disp.answer = none ∧
      ∃ v, s.device.cmdOpcode = some v ∧ exec (decodeOpcode v) s = .next t) := by
  unfold dispatcherMove at h
  split at h
  · next c =>
    split at h
    · cases h
    · next f hf =>
      simp only [commandSelect, c, and_self, if_true] at hf
      obtain ⟨v, hv, rfl⟩ := Option.map_eq_some_iff.1 hf
      exact .inr ⟨c.1, c.2, v, hv, h⟩
  · cases h; exact .inl rfl

/-- Only a send leads on to a second operation in its cycle (42_host_correlator R185). -/
theorem hostAfter_next {op : Instr} {u t : State} (h : hostAfter op u = .next t) (hop : op ≠ .hostSend) : t = u := by
  unfold hostAfter at h
  split at h
  · exact absurd rfl hop
  · cases h; rfl

end Sys2Proof.Machine
end

