-- ==== Sys2Proof/Laws/Block.lean ====
section
/-! SUPPORT. The shared operations keep the invariant of one instance. -/

namespace Sys2Proof.Machine

theorem append_blockOk {cap : Nat} {b : Block} (v : Byte) (h : blockOk cap b) : blockOk cap (b.append v) := by
  rcases append_cases b v with ⟨-, e⟩ | ⟨-, -, e⟩ | ⟨-, hl, e⟩
  · rw [e]; exact h
  · rw [e]; exact h
  · obtain ⟨h1, ⟨h2, h2'⟩, h3, h4, h5⟩ := h
    have hlt : b.decLen < Config.capRx := Nat.lt_of_le_of_ne h3 hl
    rw [e]
    refine ⟨h1, ⟨wf_write _ _ h2, write_below h2' hlt⟩, hlt, fun a ha => ?_, h5⟩
    by_cases hab : a = b.decLen
    · subst hab; simp [read_write_same]
    · have ha : a < b.decLen := by have : a < b.decLen + 1 := ha; omega
      simp [read_write_other _ _ hab, h4 a ha]

/-- Any write of the encoder registers that stays inside the frame. -/
theorem encWrite_blockOk {cap : Nat} {b : Block} (hb : blockOk cap b) {run : Bool} {ph : EncPhase} {idx : Nat}
    (hi : idx ≤ b.encN) (hr : run = true → b.encRun = true ∧ ph ≠ .done) (h9 : ph = .stuff2 → idx < b.encN)
    (h10 : ph = .term2 → idx = b.encN) : blockOk cap { b with encRun := run, encPh := ph, encIdx := idx } := by
  obtain ⟨h1, h2, h3, h4, h5, -, h7, h8, -, -⟩ := hb
  exact ⟨h1, h2, h3, h4, h5, hi, h7, fun h => ⟨(h8 (hr h).1).1, (hr h).2⟩, h9, h10⟩

theorem encoderOp_blockOk {r : Role} {s t : State} (h : encoderOp r s = .next t)
    (hb : blockOk (s.capTx r) (s.block r)) : blockOk (s.capTx r) (t.block r) := by
  have h6 := hb.2.2.2.2.2.1
  have h9 := hb.2.2.2.2.2.2.2.2.1
  rcases encoderOp_next h with ⟨v, h⟩ | h | h | h | h
  · obtain ⟨-, c2, c3, -, -, rfl⟩ := encLitOn_next h
    simpa using encWrite_blockOk hb (run := (s.block r).encRun) (ph := (s.block r).encPh)
      (idx := (s.block r).encIdx + 1) c3 (by simp [c2]) (by simp [c2]) (by simp [c2])
  · obtain ⟨-, -, c3, -, rfl⟩ := encStuff1On_next h
    simpa using encWrite_blockOk hb (run := (s.block r).encRun) (ph := .stuff2) h6 (by simp) (by simpa using c3)
      (by simp)
  · obtain ⟨-, c2, rfl⟩ := encStuff2On_next h
    simpa using encWrite_blockOk hb (run := (s.block r).encRun) (ph := .data) (idx := (s.block r).encIdx + 1) (h9 c2)
      (by simp) (by simp) (by simp)
  · obtain ⟨-, -, c3, rfl⟩ := encTerm1On_next h
    simpa using encWrite_blockOk hb (run := (s.block r).encRun) (ph := .term2) h6 (by simp) (by simp) (by simp [c3])
  · obtain ⟨-, -, rfl⟩ := encTerm2On_next h
    simpa using encWrite_blockOk hb (run := false) (ph := .done) h6 (by simp) (by simp) (by simp)

theorem decoderOp_blockOk {r : Role} {v : Byte} {s t : State} (h : decoderOp r v s = .next t)
    (hb : blockOk (s.capTx r) (s.block r)) : blockOk (s.capTx r) (t.block r) := by
  rcases decoderOp_next h with ⟨-, h⟩ | h | ⟨-, h⟩ | ⟨-, h⟩ | h
  · obtain ⟨-, -, rfl⟩ := decEscOn_next h
    simpa [blockOk] using hb
  · obtain ⟨-, -, -, rfl⟩ := decDataOn_next h
    simpa [blockOk] using append_blockOk v hb
  · obtain ⟨-, -, rfl⟩ := decEndOn_next h
    simpa [blockOk] using hb
  · obtain ⟨-, -, rfl⟩ := decLitescOn_next h
    have hb' : blockOk (s.capTx r) { s.block r with decEsc := false } := by simpa [blockOk] using hb
    simpa [blockOk] using append_blockOk Config.esc hb'
  · obtain ⟨-, -, -, -, rfl⟩ := decBadescOn_next h
    simpa [blockOk] using hb

theorem decStart_blockOk {cap : Nat} {b : Block} (h : blockOk cap b) : blockOk cap b.decStart := by
  obtain ⟨h1, h2, -, -, h5⟩ := h
  exact ⟨h1, h2, Nat.zero_le _, fun a ha => absurd ha (Nat.not_lt_zero _), h5⟩

theorem beginCall_blockOk {cap n : Nat} {b : Block} {id op : Byte} (h : blockOk cap b) (hn : n ≤ cap) :
    blockOk cap (b.beginCall id op n) := by
  obtain ⟨h1, h2, h3, h4, -⟩ := h
  exact ⟨h1, h2, h3, h4, hn, Nat.zero_le _, Nat.add_le_add_left hn 2,
    fun _ => ⟨rfl, fun h => EncPhase.noConfusion h⟩, fun h => EncPhase.noConfusion h, fun h => EncPhase.noConfusion h⟩

theorem raise_blockOk {cap : Nat} {b : Block} {k : CallResult} (h : blockOk cap b) : blockOk cap (b.raise k) := by
  obtain ⟨h1, h2, h3, h4, h5, h6, h7, -, h9, h10⟩ := h
  exact ⟨h1, h2, h3, h4, h5, h6, h7, fun h => Bool.noConfusion h, h9, h10⟩

theorem portWrite_blockOk {cap : Nat} {o : Bool} {pw : Option (Nat × Byte)} {b : Block} (h : blockOk cap b) :
    blockOk cap (b.portWrite o cap pw) := by
  rcases portWrite_cases b o cap pw with e | ⟨a, v, -, -, ha, e⟩
  · rw [e]; exact h
  · rw [e]
    obtain ⟨⟨h1, h1'⟩, h⟩ := h
    exact ⟨⟨wf_write _ _ h1, write_below h1' ha⟩, h⟩

end Sys2Proof.Machine
end

