-- ==== Sys2Proof/Laws/PerInstr.lean ====
section
/-! SUPPORT. Statements about every operation as syntax, one lemma per constructor. -/

namespace Sys2Proof.Laws.EncodeGroup

/-- An operation has an encoding exactly if its row has a bit pattern (30_encoding R106). -/
def Statement (i : Instr) : Prop := encode i = none ↔ i.group = .event

theorem decEnd : Statement .decEnd := by unfold Statement; decide
theorem decLitesc : Statement .decLitesc := by unfold Statement; decide
theorem decBadesc (b : Byte) : Statement (.decBadesc b) := by unfold Statement; simp [encode, Instr.group]
theorem decEsc : Statement .decEsc := by unfold Statement; decide
theorem decData (b : Byte) : Statement (.decData b) := by unfold Statement; simp [encode, Instr.group]
theorem encLit (b : Byte) : Statement (.encLit b) := by unfold Statement; simp [encode, Instr.group]
theorem encStuff1 : Statement .encStuff1 := by unfold Statement; decide
theorem encStuff2 : Statement .encStuff2 := by unfold Statement; decide
theorem encTerm1 : Statement .encTerm1 := by unfold Statement; decide
theorem encTerm2 : Statement .encTerm2 := by unfold Statement; decide
theorem nop : Statement .nop := by unfold Statement; decide
theorem getDevType : Statement .getDevType := by unfold Statement; decide
theorem getDevRev : Statement .getDevRev := by unfold Statement; decide
theorem getOds : Statement .getOds := by unfold Statement; decide
theorem setOds : Statement .setOds := by unfold Statement; decide
theorem getPa : Statement .getPa := by unfold Statement; decide
theorem setPa : Statement .setPa := by unfold Statement; decide
theorem getFreq : Statement .getFreq := by unfold Statement; decide
theorem setFreq : Statement .setFreq := by unfold Statement; decide
theorem getFdev : Statement .getFdev := by unfold Statement; decide
theorem setFdev : Statement .setFdev := by unfold Statement; decide
theorem getEnc : Statement .getEnc := by unfold Statement; decide
theorem setEnc : Statement .setEnc := by unfold Statement; decide
theorem loadFrame : Statement .loadFrame := by unfold Statement; decide
theorem appendFrame : Statement .appendFrame := by unfold Statement; decide
theorem rfSend : Statement .rfSend := by unfold Statement; decide
theorem unknown (b : Byte) : Statement (.unknown b) := by unfold Statement; simp [encode, Instr.group]
theorem encStart : Statement .encStart := by unfold Statement; decide
theorem decStart : Statement .decStart := by unfold Statement; decide
theorem decEod : Statement .decEod := by unfold Statement; decide
theorem hostCall (id op : Byte) (plen : Nat) : Statement (.hostCall id op plen) := by unfold Statement; simp [encode, Instr.group]
theorem hostSend : Statement .hostSend := by unfold Statement; decide
theorem hostChfailSend : Statement .hostChfailSend := by unfold Statement; decide
theorem hostEnterRecv : Statement .hostEnterRecv := by unfold Statement; decide
theorem hostRecv (b : Byte) : Statement (.hostRecv b) := by unfold Statement; simp [encode, Instr.group]
theorem hostTimeout : Statement .hostTimeout := by unfold Statement; decide
theorem hostChfailRecv : Statement .hostChfailRecv := by unfold Statement; decide
theorem hostValidate : Statement .hostValidate := by unfold Statement; decide
theorem devRecv (b : Byte) : Statement (.devRecv b) := by unfold Statement; simp [encode, Instr.group]
theorem devDiscard : Statement .devDiscard := by unfold Statement; decide
theorem devDiscardShort : Statement .devDiscardShort := by unfold Statement; decide
theorem devDispatch : Statement .devDispatch := by unfold Statement; decide
theorem devRespond (st : Byte) (plen : Nat) : Statement (.devRespond st plen) := by unfold Statement; simp [encode, Instr.group]
theorem devSend : Statement .devSend := by unfold Statement; decide

end Sys2Proof.Laws.EncodeGroup
end

