-- ==== Sys2Proof/Tests/Slice0.lean ====
section
/-! SUPPORT. Small tests, their expected results taken from the spec's tables and examples, and for every statement with
hypotheses a state that meets them. -/

namespace Sys2Proof.Tests

open Sys2Proof.Machine

/-! ### Ill-formed terms are refused, one for each check of WellFormed -/

theorem test_illformed_badesc_end : (Instr.decBadesc 0xAF).wellFormed = false := by decide
theorem test_illformed_badesc_esc : (Instr.decBadesc 0xFF).wellFormed = false := by decide
theorem test_illformed_data : (Instr.decData 0xFF).wellFormed = false := by decide
theorem test_illformed_lit : (Instr.encLit 0xFF).wellFormed = false := by decide
theorem test_illformed_unknown : (Instr.unknown 0x33).wellFormed = false := by decide
theorem test_illformed_call : (Instr.hostCall 0xFF 0x00 0).wellFormed = false := by decide
theorem test_illformed_respond : (Instr.devRespond 0x00 255).wellFormed = false := by decide
theorem test_wellformed_respond : (Instr.devRespond 0x00 254).wellFormed = true := by decide

/-! ### Words written out from 30_encoding R106 (the 9-bit patterns) and R98 (the opcodes) -/

theorem test_decode_end : decodeTableWord 16 0b110101111 = some .decEnd := by decide
theorem test_decode_litesc : decodeTableWord 16 0b111111111 = some .decLitesc := by decide
theorem test_decode_badesc : decodeTableWord 16 0b100000000 = some (.decBadesc 0x00) := by decide
theorem test_decode_badesc_near_end : decodeTableWord 16 0b110101110 = some (.decBadesc 0xAE) := by decide
theorem test_decode_esc : decodeTableWord 16 0b011111111 = some .decEsc := by decide
theorem test_decode_data : decodeTableWord 16 0b001000001 = some (.decData 0x41) := by decide
theorem test_decode_data_end_is_data : decodeTableWord 16 0b010101111 = some (.decData 0xAF) := by decide
theorem test_decode_reserved_bits : decodeTableWord 16 0b1000000000 = none := by decide
theorem test_decode_nop : decodeTableWord 8 0b00000000 = some .nop := by decide
theorem test_decode_getDevType : decodeTableWord 8 0b00000001 = some .getDevType := by decide
theorem test_decode_getDevRev : decodeTableWord 8 0b00000010 = some .getDevRev := by decide
theorem test_decode_getOds : decodeTableWord 8 0b00001010 = some .getOds := by decide
theorem test_decode_setOds : decodeTableWord 8 0b00001011 = some .setOds := by decide
theorem test_decode_getPa : decodeTableWord 8 0b00001100 = some .getPa := by decide
theorem test_decode_setPa : decodeTableWord 8 0b00001101 = some .setPa := by decide
theorem test_decode_getFreq : decodeTableWord 8 0b00001110 = some .getFreq := by decide
theorem test_decode_setFreq : decodeTableWord 8 0b00001111 = some .setFreq := by decide
theorem test_decode_getFdev : decodeTableWord 8 0b00010000 = some .getFdev := by decide
theorem test_decode_setFdev : decodeTableWord 8 0b00010001 = some .setFdev := by decide
theorem test_decode_getEnc : decodeTableWord 8 0b00010010 = some .getEnc := by decide
theorem test_decode_setEnc : decodeTableWord 8 0b00010011 = some .setEnc := by decide
theorem test_decode_loadFrame : decodeTableWord 8 0b00010100 = some .loadFrame := by decide
theorem test_decode_appendFrame : decodeTableWord 8 0b00010101 = some .appendFrame := by decide
theorem test_decode_rfSend : decodeTableWord 8 0b00110011 = some .rfSend := by decide
theorem test_decode_unknown : decodeTableWord 8 0b00010110 = some (.unknown 0x16) := by decide
/-- The encoder's rows by 40_encoder R138. -/
theorem test_select_encoder :
    decode (.emit .data false 0x41) = .ok (.encLit 0x41) ∧ decode (.emit .data false 0xFF) = .ok .encStuff1 ∧
    decode (.emit .stuff2 false 0x00) = .ok .encStuff2 ∧ decode (.emit .data true 0xFF) = .ok .encTerm1 ∧
    decode (.emit .term2 true 0x00) = .ok .encTerm2 ∧ decode (.emit .done true 0x00) = .error .encoderDone := by
  decide

/-! ### Small states -/

/-- A resident state of known values. -/
def dispA : Dispatcher :=
  { ods := ⟨1, 2, 3, 4, 0x1234, 5, 6, 7⟩, pa := ⟨0x3F800000, 0x40000000, 77, 1, 0x01FF⟩, freq := 0x4DCE8420, fdev := 32,
    enc := 1, frameBuf := [0xAA], devType := 0x0100, devRev := 0x0003, answer := none }

/-- The reset system with that resident state. -/
def sysA : State := { State.reset with disp := dispA }

/-- The DEVICE encoding the frame `[0x41, 0xFF] ++ pay`. -/
def sending (ph : EncPhase) (idx : Nat) (pay : List Byte) : State :=
  { sysA with
    device := { Block.reset .device with
      hdr0 := 0x41, hdr1 := 0xFF, curId := 0x41, txPlen := pay.length, txpay := Memory.writeList [] 0 pay,
      encRun := true, encPh := ph, encIdx := idx, encN := 2 + pay.length, decRun := false, trState := .dSend } }

/-- The DEVICE decoding, with `pre` decoded. -/
def decoding (esc err : Bool) (pre : List Byte) : State :=
  { sysA with
    device := { Block.reset .device with
      decEsc := esc, decErr := err, decLen := pre.length, rxbuf := Memory.writeList [] 0 pre } }

/-- The DEVICE decoding with a full buffer (the bytes do not matter). -/
def decodingFull (esc err : Bool) : State :=
  { sysA with device := { Block.reset .device with decEsc := esc, decErr := err, decLen := 256 } }

/-- The HOST sending the frame `[0x5A, op]`. -/
def hostSending (ph : EncPhase) (idx : Nat) (op : Byte) : State :=
  { sysA with
    turn := .host
    host := { Block.reset .host with
      hdr0 := 0x5A, hdr1 := op, curId := 0x5A, encRun := true, encPh := ph, encIdx := idx, encN := 2, busy := true,
      trState := .hSend } }

/-- The HOST receiving, with `pre` decoded, for the id 0x5A. -/
def hostReceiving (esc err : Bool) (pre : List Byte) (idle : Nat) : State :=
  { sysA with
    turn := .host
    host := { Block.reset .host with
      curId := 0x5A, decEsc := esc, decErr := err, decLen := pre.length, rxbuf := Memory.writeList [] 0 pre,
      decRun := true, idleCnt := idle, busy := true, trState := .hRecv } }

/-- The HOST with a decode that has just ended. -/
def hostDecoded (res : DecRes) (pre : List Byte) : State :=
  { hostReceiving false false pre 0 with
    host := { (hostReceiving false false pre 0).host with decRun := false, decRes := res } }

/-- The DEVICE with a decode that has just ended. -/
def devDecoded (res : DecRes) (pre : List Byte) : State :=
  { sysA with
    device := { Block.reset .device with
      decRun := false, decRes := res, decLen := pre.length, rxbuf := Memory.writeList [] 0 pre } }

/-- The command `[0x5A, op] ++ p` waiting at the dispatcher port. -/
def command (op : Byte) (p : List Byte) : State :=
  { sysA with
    device := { Block.reset .device with
      decRun := false, decRes := .frameOk, decLen := (0x5A :: op :: p).length,
      rxbuf := Memory.writeList [] 0 (0x5A :: op :: p), curId := 0x5A, trState := .dDispatch } }

/-- What a next state shows. -/
def shows {α : Type} (o : Out) (f : State → α) : Option α :=
  match o with
  | .next t => some (f t)
  | .fault _ => none
  | .refused _ => none

/-! ### One step, results from the rules' own examples -/

/-- R131: `tx_plen` = 3 gives `enc_n` = 5. -/
theorem test_encStart :
    shows (exec .encStart { sysA with device := { sysA.device with txPlen := 3 } })
      (fun t => (t.device.encN, t.device.encRun)) = some (5, true) := by decide
/-- R132: `F[enc_idx]` = 0x41 puts 41 on the wire. -/
theorem test_encLit :
    shows (exec (.encLit 0x41) (sending .data 0 [])) (fun t => (t.dh, t.device.encIdx)) = some ([0x41], 1) := by decide
/-- R133: the index stays. -/
theorem test_encStuff1 :
    shows (exec .encStuff1 (sending .data 1 [])) (fun t => (t.dh, t.device.encIdx, t.device.encPh)) =
      some ([0xFF], 1, .stuff2) := by decide
/-- R134. -/
theorem test_encStuff2 :
    shows (exec .encStuff2 (sending .stuff2 1 [])) (fun t => (t.dh, t.device.encIdx, t.device.encPh)) =
      some ([0xFF], 2, .data) := by decide
/-- R135. -/
theorem test_encTerm1 :
    shows (exec .encTerm1 (sending .data 2 [])) (fun t => (t.dh, t.device.encPh)) = some ([0xFF], .term2) := by decide
/-- R136. -/
theorem test_encTerm2 :
    shows (exec .encTerm2 (sending .term2 2 [])) (fun t => (t.dh, t.device.encRun)) = some ([0xAF], false) := by decide
/-- R130: `Encode([FF, AF]) = FF FF AF FF AF`. -/
theorem test_encodeFrame : encodeFrame [0xFF, 0xAF] = [0xFF, 0xFF, 0xAF, 0xFF, 0xAF] := by decide
/-- R151: a pending escape does not leak into the next decode. -/
theorem test_decStart :
    shows (exec .decStart (decoding true true [0x5A])) (fun t => (t.device.decEsc, t.device.decErr, t.device.decLen)) =
      some (false, false, 0) := by decide
/-- R153. -/
theorem test_decEsc :
    shows (exec .decEsc (decoding false true [])) (fun t => (t.device.decEsc, t.device.decLen)) = some (true, 0) := by
  decide
/-- R154: 5A with an empty buffer. -/
theorem test_decData :
    shows (exec (.decData 0x5A) (decoding false false [])) (fun t => (t.device.rxbuf, t.device.decLen)) =
      some ([(0, 0x5A)], 1) := by decide
/-- R155: byte 257 sets the error flag and is discarded. -/
theorem test_decData_overflow :
    shows (exec (.decData 0x5A) (decodingFull false false)) (fun t => (t.device.decErr, t.device.decLen)) =
      some (true, 256) := by decide
/-- R157: `FF FF` with an empty buffer. -/
theorem test_decLitesc :
    shows (exec .decLitesc (decoding true false [])) (fun t => (t.device.rxbuf, t.device.decEsc)) =
      some ([(0, 0xFF)], false) := by decide
/-- R158: `FF 00` sets the flag. -/
theorem test_decBadesc :
    shows (exec (.decBadesc 0x00) (decoding true false [0x5A])) (fun t => (t.device.decErr, t.device.decLen)) =
      some (true, 1) := by decide
/-- R156: `5A 00 FF AF` ends FRAME_OK. -/
theorem test_decEnd :
    shows (exec .decEnd (decoding true false [0x5A, 0x00])) (fun t => (t.device.decRes, t.device.decLen)) =
      some (.frameOk, 2) := by decide
/-- R156: with the error flag set, FRAMING_ERROR. -/
theorem test_decEnd_error :
    shows (exec .decEnd (decoding true true [])) (fun t => (t.device.decRes, t.device.decErr)) =
      some (.framingError, true) := by decide
/-- R159: `5A 00 <EOD>` ends TIMEOUT with `dec_len` = 2. -/
theorem test_decEod :
    shows (exec .decEod (hostReceiving false false [0x5A, 0x00] 25)) (fun t => (t.host.decRes, t.host.decLen)) =
      some (.timeout, 2) := by decide
/-- R181: `CALL NOP []` with id 0x5A. -/
theorem test_hostCall :
    shows (exec (.hostCall 0x5A 0x00 0) sysA) (fun t => (t.host.hdr0, t.host.hdr1, t.host.trState)) =
      some (0x5A, 0x00, .hSend) := by decide
/-- R183. -/
theorem test_hostSend :
    shows (exec .hostSend (hostSending .data 0 0x00)) (fun t => (t.hd, t.dh)) = some ([0x5A], []) := by decide
/-- R184. -/
theorem test_hostChfailSend :
    shows (exec .hostChfailSend (hostSending .data 1 0x00)) (fun t => (t.host.result, t.host.encRun)) =
      some (.channelError, false) := by decide
/-- R185. -/
theorem test_hostEnterRecv :
    shows (exec .hostEnterRecv
      { hostSending .done 2 0x00 with host := { (hostSending .done 2 0x00).host with encRun := false } })
      (fun t => (t.host.trState, t.host.decRun)) = some (.hRecv, true) := by decide
/-- R186, R189: the last byte of `5A 00 FF AF`. -/
theorem test_hostRecv :
    shows (exec (.hostRecv 0xAF) (hostReceiving true false [0x5A, 0x00] 3))
      (fun t => (t.host.result, t.host.respStatus)) = some (.ok, 0x00) := by decide
/-- R187. -/
theorem test_hostTimeout :
    shows (exec .hostTimeout (hostReceiving true false [] 25)) (fun t => (t.host.result, t.host.busy)) =
      some (.timeout, false) := by decide
/-- R188: `5A <FAIL>` during the read. -/
theorem test_hostChfailRecv :
    shows (exec .hostChfailRecv (hostReceiving false false [0x5A] 0)) (fun t => (t.host.result, t.host.decRun)) =
      some (.channelError, false) := by decide
/-- R189: call id 0x5A, response `5B 00`. -/
theorem test_hostValidate_desync :
    shows (exec .hostValidate (hostDecoded .frameOk [0x5B, 0x00])) (fun t => t.host.result) = some .desync := by decide
/-- R281: a one-byte frame with a foreign id is ShortFrame. -/
theorem test_hostValidate_short :
    shows (exec .hostValidate (hostDecoded .frameOk [0x5B])) (fun t => t.host.result) = some .shortFrame := by decide
/-- R211: the byte that ends `5A 00 FF AF` offers the command. -/
theorem test_devRecv :
    shows (exec (.devRecv 0xAF) (decoding true false [0x5A, 0x00])) (fun t => (t.device.dispReq, t.device.curId)) =
      some (true, 0x5A) := by decide
/-- R212. -/
theorem test_devDiscard :
    shows (exec .devDiscard (devDecoded .framingError [0x33])) (fun t => (t.device.decRun, t.device.decLen, t.dh)) =
      some (true, 0, []) := by decide
/-- R213: the empty frame is dropped. -/
theorem test_devDiscardShort :
    shows (exec .devDiscardShort (devDecoded .frameOk [])) (fun t => (t.device.decRun, t.device.trState)) =
      some (true, .dRecv) := by decide
/-- R214: `[5A, 00]`. -/
theorem test_devDispatch :
    shows (exec .devDispatch (devDecoded .frameOk [0x5A, 0x00]))
      (fun t => (t.device.curId, t.device.cmdOpcode, t.device.cmdPlen)) = some (0x5A, some 0x00, some 0) := by decide
/-- R215. -/
theorem test_devRespond :
    shows (exec (.devRespond 0x00 0) (command 0x00 [])) (fun t => (t.device.hdr0, t.device.hdr1, t.device.encN)) =
      some (0x5A, 0x00, 2) := by decide
/-- R216: after AF the device waits for the next command. -/
theorem test_devSend :
    shows (exec .devSend (sending .term2 2 [])) (fun t => (t.dh, t.device.trState, t.device.decRun)) =
      some ([0xAF], .dRecv, true) := by decide
/-- R233: `[5A, 00]` answered OK, empty. -/
theorem test_nop : shows (exec .nop (command 0x00 [])) (fun t => t.disp.answer) = some (some (0x00, 0)) := by decide
/-- R236, R250: bit_rate is most significant byte first. -/
theorem test_getOds :
    shows (exec .getOds (command 0x0A [])) (fun t => Memory.readRange t.device.txpay 0 9) =
      some (some [1, 2, 3, 4, 0x12, 0x34, 5, 6, 7]) := by decide
/-- R237: 8 bytes are answered 10. -/
theorem test_setOds_length :
    shows (exec .setOds (command 0x0B [1, 2, 3, 4, 5, 6, 7, 0])) (fun t => (t.disp.answer, t.disp.ods.clkDiv)) =
      some (some (0x10, 0), 2) := by decide
/-- R237, R250. -/
theorem test_setOds :
    shows (exec .setOds (command 0x0B [0, 7, 3, 7, 0x7F, 0xFE, 15, 14, 13])) (fun t => (t.disp.answer, t.disp.ods.bitRate)) =
      some (some (0x00, 0), 0x7FFE) := by decide
/-- R238, R251. -/
theorem test_getPa :
    shows (exec .getPa (command 0x0C [])) (fun t => Memory.readRange t.device.txpay 0 12) =
      some (some [0x3F, 0x80, 0, 0, 0x40, 0, 0, 0, 77, 1, 0x01, 0xFF]) := by decide
/-- R239: 13 bytes are answered 10. -/
theorem test_setPa_length :
    shows (exec .setPa (command 0x0D (List.replicate 13 0))) (fun t => (t.disp.answer, t.disp.pa.level)) =
      some (some (0x10, 0), 77) := by decide
/-- R239, R251. -/
theorem test_setPa :
    shows (exec .setPa (command 0x0D [1, 2, 3, 4, 5, 6, 7, 8, 127, 1, 1, 0xFE])) (fun t => (t.disp.pa.alpha, t.disp.pa.nominalCap)) =
      some (0x01020304, 0x01FE) := by decide
/-- R240, R241: the four bytes come back as they were carried. -/
theorem test_setFreq :
    shows (exec .setFreq (command 0x0F [0x4D, 0xCE, 0x84, 0x20])) (fun t => be32 t.disp.freq) =
      some [0x4D, 0xCE, 0x84, 0x20] := by decide
theorem test_getFreq :
    shows (exec .getFreq (command 0x0E [])) (fun t => t.disp.answer) = some (some (0x00, 4)) := by decide
/-- R243: `[5A, 11, 20]`. -/
theorem test_setFdev :
    shows (exec .setFdev (command 0x11 [0x20])) (fun t => (t.disp.answer, t.disp.fdev)) = some (some (0x00, 0), 0x20) := by
  decide
theorem test_getFdev :
    shows (exec .getFdev (command 0x10 [])) (fun t => Memory.read t.device.txpay 0) = some (some 32) := by decide
theorem test_getEnc :
    shows (exec .getEnc (command 0x12 [])) (fun t => Memory.read t.device.txpay 0) = some (some 1) := by decide
/-- R245: `[21, 13, 03]` answered 11. -/
theorem test_setEnc :
    shows (exec .setEnc (command 0x13 [0x03])) (fun t => (t.disp.answer, t.disp.enc)) = some (some (0x11, 0), 1) := by
  decide
/-- R246: `[5A, 14, AA, 55]` leaves the Frame Buffer `[AA, 55]`. -/
theorem test_loadFrame :
    shows (exec .loadFrame (command 0x14 [0xAA, 0x55])) (fun t => t.disp.frameBuf) = some [0xAA, 0x55] := by decide
/-- R247: 254 bytes and 3 more are answered 51. -/
theorem test_appendFrame_full :
    (replyAppendFrame { dispA with frameBuf := List.replicate 254 0 } [1, 2, 3] true).status = 0x51 := by decide +kernel
theorem test_appendFrame :
    shows (exec .appendFrame (command 0x15 [0x55])) (fun t => t.disp.frameBuf) = some [0xAA, 0x55] := by decide
/-- R248: with a wrong cookie nothing is transmitted. -/
theorem test_rfSend_cookie :
    (replyRfSend dispA [0, 0, 0, 0, 1] true).job = none ∧ (replyRfSend dispA [0, 0, 0, 0, 1] true).status = 0x50 := by
  unfold replyRfSend
  simp [sendCookie, Reply.fail, statusSendCookie]
/-- R249: `[5A, 7F]` answered 01. -/
theorem test_unknown :
    shows (exec (.unknown 0x7F) (command 0x7F [])) (fun t => t.disp.answer) = some (some (0x01, 0)) := by decide
/-- R234, R235, R252: the resident identity is not changed by asking. -/
theorem test_identity :
    shows (exec .getDevType (command 0x01 [])) (fun t => t.disp.devType) = some 0x0100 ∧
    shows (exec .getDevRev (command 0x02 [])) (fun t => t.disp.devRev) = some 0x0003 := by decide

/-! ### Hypotheses that can be met: one theorem for each statement that has any -/

theorem witness_DecodeOfEncode :
    (Instr.unknown 0xFF).wellFormed = true ∧ (Instr.unknown 0xFF).group ≠ .event ∧
    encode (.unknown 0xFF) = some (.opcode 0xFF) := by decide
theorem test_decode_near_neighbours :
    decode (.stream 0x1AE) = .ok (.decBadesc 0xAE) ∧ decode (.opcode 0x34) = .ok (.unknown 0x34) := ⟨by decide, by decide⟩
theorem witness_EncoderSelection :
    (sending .data 0 []).device.frameByte 0 = some 0x41 ∧ (sending .data 1 []).device.frameByte 1 = some 0xFF ∧
    (sending .data 2 []).device.encIdx = (sending .data 2 []).device.encN ∧
    (sending .data 2 []).device.encRun = true ∧ (sending .stuff2 1 []).device.encPh = .stuff2 ∧
    (sending .term2 2 []).device.encPh = .term2 ∧
    (shows (exec .encTerm1 (sending .data 2 [])) (fun _ => 0)).isSome = true := by decide
theorem witness_EncoderSelection_inv :
    blockOk 254 ((sending .data 1 [0x10]).block (sending .data 1 [0x10]).turn) ∧
    sendReady ((sending .data 1 [0x10]).block (sending .data 1 [0x10]).turn) ∧
    ((sending .data 1 [0x10]).block (sending .data 1 [0x10]).turn).encRun = true := by
  refine ⟨⟨⟨by decide, by decide⟩, ⟨by decide, by decide⟩, by decide, fun a h => absurd h (Nat.not_lt_zero a), by decide⟩,
    fun _ k h => ?_, rfl⟩
  have : k = 0 := Nat.lt_one_iff.1 h
  subst this
  decide
theorem witness_DecoderSelection :
    (decoding false false []).device.decRun = true ∧ (decoding true false []).device.decEsc = true ∧
    (devDecoded .frameOk []).device.decRun = false := by decide
theorem witness_EncStart : (sysA.block sysA.turn).encRun = false := by decide
theorem witness_EncLit :
    (sending .data 0 []).device.encRun = true ∧ (sending .data 0 []).device.encIdx < (sending .data 0 []).device.encN ∧
    (sending .data 0 []).device.frameByte 0 = some 0x41 ∧
    (sending .data 2 [0xAF]).device.frameByte 2 = some 0xAF := by decide
theorem witness_EncStuff :
    (sending .data 1 []).device.frameByte (sending .data 1 []).device.encIdx = some 0xFF ∧
    (sending .stuff2 1 []).device.encPh = .stuff2 ∧ (sending .stuff2 1 []).device.encRun = true := by decide
theorem witness_EncTerm :
    (sending .data 2 []).device.encIdx = (sending .data 2 []).device.encN ∧
    (sending .term2 2 []).device.encPh = .term2 ∧ (sending .term2 2 []).device.encRun = true := by decide
theorem witness_Channel :
    (sysA.stream .host).length < sysA.params.chDepth ∧
    ({ sysA with params := { sysA.params with chDepth := 0 } } : State).params.chDepth ≤ (sysA.stream .host).length ∧
    1 < (({ sysA with hd := [1, 2] } : State).stream .host).length ∧
    (({ sysA with hd := [1, 2] } : State).stream .host).length ≤ 2 := by
  decide
/-- 20_memory R72: of the bytes 1, 2 the second is lost, or becomes 9. -/
theorem test_lose_alter :
    (loseByte .host 1 { sysA with hd := [1, 2] }).hd = [1] ∧
    (alterByte .host 1 9 { sysA with hd := [1, 2] }).hd = [1, 9] := by decide
theorem witness_DecEsc : (decoding false true []).device.decRun = true ∧ (decoding false true []).device.decEsc = false := by
  decide
theorem witness_DecData :
    (decoding false true []).device.decErr = true ∧ (decodingFull false false).device.decLen = 256 ∧
    (decodingFull false false).device.decRun = true ∧ (decodingFull false false).device.decEsc = false ∧
    (decoding false false [1]).device.decErr = false ∧ (decoding false false [1]).device.decLen ≠ 256 := by decide
theorem witness_DecLitesc :
    (decoding true true []).device.decErr = true ∧ (decodingFull true false).device.decLen = 256 ∧
    (decodingFull true false).device.decRun = true ∧ (decodingFull true false).device.decEsc = true ∧
    (decoding true false [1]).device.decErr = false ∧ (decoding true false [1]).device.decLen ≠ 256 := by decide
theorem witness_DecBadesc : (decoding true false []).device.decRun = true ∧ (decoding true false []).device.decEsc = true := by
  decide
theorem witness_DecodeEnds :
    (decoding true false []).device.decEsc = true ∧ (hostReceiving false false [] 25).turn = .host ∧ sysA.turn = .device ∧
    (hostReceiving false false [] 25).host.decRun = true ∧
    (hostReceiving false false [] 25).host.idleCnt = (hostReceiving false false [] 25).params.nIdle := by decide
theorem witness_HostCall :
    sysA.host.trState = .hIdle ∧ (1021 : Nat) ≤ sysA.params.capTxPay ∧ sysA.params.capTxPay < 1022 := by decide
theorem witness_StartWhileBusy :
    hostOk (hostSending .data 0 0).params (hostSending .data 0 0).host ∧ (hostSending .data 0 0).host.busy = true := by
  unfold hostOk
  decide
theorem witness_HostSend :
    (hostSending .data 0 0).host.trState = .hSend ∧ (hostSending .data 0 0).host.encRun = true ∧
    (hostSending .data 0 0).host.encIdx ≤ (hostSending .data 0 0).host.encN ∧
    ((hostSending .data 0 0).host.sendOnce).isSome = true := by decide
theorem witness_ChannelFailure :
    (hostSending .data 0 0).host.trState = .hSend ∧ (hostReceiving false false [] 0).host.trState = .hRecv := by decide
/-- The HOST after its terminator has been accepted. -/
def hostSent : State := { hostSending .done 2 0 with host := { (hostSending .done 2 0).host with encRun := false } }
theorem witness_HostEnterRecv :
    hostSent.host.trState = .hSend ∧ hostSent.host.encRun = false ∧ hostSent.host.encPh = .done := by decide
theorem witness_HostRecv :
    (hostReceiving false false [0x5A] 0).host.decRun = true ∧ (hostReceiving false false [0x5A] 0).host.encRun = false ∧
    ((hostReceiving false false [0x5A] 0).host.recvOnce 0x00).decRun = true ∧
    ((hostReceiving true false [0x5A, 0x07] 0).host.recvOnce 0xAF).decRun = false ∧
    ((hostReceiving true false [0x5A, 0x07] 0).host.recvOnce 0xAF).verdict = some (.appStatus, 0x07) := by decide
theorem witness_HostTimeout :
    (hostReceiving false true [] 25).host.trState = .hRecv ∧ (hostReceiving false true [] 25).host.encRun = false ∧
    (hostReceiving false true [] 25).host.idleCnt = (hostReceiving false true [] 25).params.nIdle := by decide
theorem witness_HostValidate :
    (hostDecoded .timeout []).host.decRes = .timeout ∧ (hostDecoded .framingError []).host.decRes = .framingError ∧
    (hostDecoded .frameOk [0x5A]).host.decLen < 2 ∧ (2 ≤ (hostDecoded .frameOk [0x5B, 0]).host.decLen) ∧
    Memory.read (hostDecoded .frameOk [0x5B, 0]).host.rxbuf 0 = some 0x5B ∧
    Memory.read (hostDecoded .frameOk [0x5A, 0]).host.rxbuf 1 = some 0x00 ∧
    Memory.read (hostDecoded .frameOk [0x5A, 9]).host.rxbuf 1 = some 0x09 ∧
    (hostDecoded .frameOk [0x5A, 9]).host.curId = 0x5A ∧ (hostDecoded .frameOk []).host.decRun = false ∧
    (hostDecoded .frameOk []).host.trState = .hRecv ∧ (hostDecoded .frameOk []).host.encRun = false := by decide
theorem witness_DevRecv :
    (decoding false false []).device.trState = .dRecv ∧ ((decoding false false []).device.recvOnce 0x5A).decRun = true ∧
    ((decoding true false [0x5A, 0]).device.recvOnce 0xAF).decRun = false ∧
    ((decoding true false [0x5A, 0]).device.recvOnce 0xAF).served.isSome = true ∧
    ((decoding true true [0x5A, 0]).device.recvOnce 0xAF).served.isSome = true ∧
    ((decoding true false [0x5A]).device.recvOnce 0xAF).served.isSome = true := by decide
theorem witness_DevDiscards :
    (devDecoded .framingError []).device.decRes = .framingError ∧ (devDecoded .frameOk [1]).device.decLen < 2 ∧
    (devDecoded .frameOk [1]).device.trState = .dRecv ∧ (devDecoded .frameOk [1]).device.decRun = false := by decide
theorem witness_DevDispatch :
    (devDecoded .frameOk [0xFF, 0]).device.decRes = .frameOk ∧ 2 ≤ (devDecoded .frameOk [0xFF, 0]).device.decLen ∧
    Memory.read (devDecoded .frameOk [0xFF, 0]).device.rxbuf 0 = some 0xFF := by decide
theorem witness_DevRespond : (command 0 []).device.trState = .dDispatch := by decide
theorem witness_DevSend :
    (sending .data 0 []).device.trState = .dSend ∧
    ((sending .data 0 []).device.sendOnce.map (fun x => x.2.encRun)) = some true ∧
    ((sending .term2 2 []).device.sendOnce.map (fun x => x.2.encRun)) = some false ∧
    (sending .term2 2 []).device.encIdx ≤ (sending .term2 2 []).device.encN := by decide

/-- Any payload up to some length can wait. -/
theorem waiting_command (op : Byte) (p : List Byte) : waiting (command op p) p := by
  refine ⟨rfl, rfl, ?_⟩
  have h : Memory.readRange (Memory.writeList (Memory.writeList [] 0 [0x5A, op]) 2 p) 2 p.length = some p :=
    readRange_writeList p _ 2
  simpa [Block.payload, command, Memory.writeList] using h

theorem witness_NopAndGets : waiting (command 0x00 []) [] := waiting_command _ _
theorem witness_PayloadOnAGet :
    (0x12 : Byte) ∈ ([0x00, 0x01, 0x02, 0x0A, 0x0C, 0x0E, 0x10, 0x12] : List Byte) ∧ waiting (command 0x12 [7]) [7] :=
  ⟨by decide, waiting_command _ _⟩
theorem witness_SetOds :
    waiting (command 0x0B [0, 7, 3, 7, 127, 0xFF, 15, 15, 15]) [0, 7, 3, 7, 127, 0xFF, 15, 15, 15] ∧
    waiting (command 0x0B [1]) [1] := ⟨waiting_command _ _, waiting_command _ _⟩
theorem witness_SetPa :
    waiting (command 0x0D [0, 0, 0, 0, 0, 0, 0, 0, 127, 1, 1, 0xFF]) [0, 0, 0, 0, 0, 0, 0, 0, 127, 1, 1, 0xFF] ∧
    waiting (command 0x0D []) [] := ⟨waiting_command _ _, waiting_command _ _⟩
theorem witness_SetFreq :
    waiting (command 0x0F [1, 2, 3, 4]) [1, 2, 3, 4] ∧ waiting (command 0x0F [1, 2, 3]) [1, 2, 3] :=
  ⟨waiting_command _ _, waiting_command _ _⟩
theorem witness_SetFdev :
    waiting (command 0x11 [104]) [104] ∧ (104 : Byte).toNat ≤ 104 ∧ waiting (command 0x11 []) [] :=
  ⟨waiting_command _ _, by decide, waiting_command _ _⟩
theorem witness_SetEnc :
    waiting (command 0x13 [2]) [2] ∧ waiting (command 0x13 [3]) [3] ∧ waiting (command 0x13 [7, 0]) [7, 0] ∧
    waiting (command 0x13 []) [] :=
  ⟨waiting_command _ _, waiting_command _ _, waiting_command _ _, waiting_command _ _⟩
theorem witness_LoadFrame : waiting (command 0x14 []) [] := waiting_command _ _
/-- A combined length of 256 and one of 257: `dispA` holds one byte. -/
theorem witness_AppendFrame :
    waiting (command 0x15 (List.replicate 255 0)) (List.replicate 255 0) ∧
    (command 0x15 (List.replicate 255 0)).disp.frameBuf.length + (List.replicate 255 (0 : Byte)).length = 256 ∧
    waiting (command 0x15 (List.replicate 256 0)) (List.replicate 256 0) ∧
    (command 0x15 (List.replicate 256 0)).disp.frameBuf.length + (List.replicate 256 (0 : Byte)).length = 257 :=
  ⟨waiting_command _ _, by rw [List.length_replicate]; rfl, waiting_command _ _, by rw [List.length_replicate]; rfl⟩
theorem witness_RfSend :
    waiting (command 0x33 [0xCA, 0x4F, 0x09, 0x96]) [0xCA, 0x4F, 0x09, 0x96] ∧
    waiting (command 0x33 ([0xCA, 0x4F, 0x09, 0x96] ++ List.replicate repeatCountWidth 1))
      ([0xCA, 0x4F, 0x09, 0x96] ++ List.replicate repeatCountWidth 1) ∧
    waiting (command 0x33 ([0, 0, 0, 0] ++ List.replicate repeatCountWidth 1))
      ([0, 0, 0, 0] ++ List.replicate repeatCountWidth 1) ∧
    waiting (command 0x33 []) [] :=
  ⟨waiting_command _ _, waiting_command _ _, waiting_command _ _, waiting_command _ _⟩
theorem witness_Unlisted :
    (0x16 : Byte) ∉ ([0x00, 0x01, 0x02, 0x0A, 0x0B, 0x0C, 0x0D, 0x0E, 0x0F, 0x10, 0x11, 0x12, 0x13, 0x14, 0x15,
      0x33] : List Byte) ∧ waiting (command 0x16 [1]) [1] := ⟨by decide, waiting_command _ _⟩
theorem witness_WideFields :
    waiting (command 0x0B (List.replicate 9 0xFF)) (List.replicate 9 0xFF) ∧
    waiting (command 0x0D (List.replicate 12 0xFF)) (List.replicate 12 0xFF) ∧ waiting (command 0x11 [105]) [105] :=
  ⟨waiting_command _ _, waiting_command _ _, waiting_command _ _⟩
theorem witness_FailedCommands :
    Instr.setEnc.group = .frameOpcode ∧
    shows (exec .setEnc (command 0x13 [3])) (fun t => t.disp.answer) = some (some (0x11, 0)) := by decide
theorem witness_Statuses :
    (shows (exec .getPa (command 0x0C [])) (fun t => t.disp.answer)) = some (some (0x00, 12)) := by decide

/-- One move to come. -/
def withMove (m : Move) (s : State) : State := { s with script := [m] }

theorem witness_StepRuns :
    hostSelect { start := some (1, 0, 0) } sysA = some (.hostCall 1 0 0) ∧
    hostSelect { txReady := true } (hostSending .data 0 0) = some .hostSend ∧
    (shows (exec .hostSend (hostSending .term2 2 0)) (fun t => t.host.encRun)) = some false ∧
    deviceSelect { rxValid := true } { sysA with hd := [7] } = some (.devRecv 7) ∧
    (command 0x33 []).device.trState = .dDispatch ∧ (command 0x33 []).disp.answer = none ∧
    Memory.read (command 0x33 []).device.rxbuf 1 = some 0x33 ∧ decode (.opcode 0x33) = .ok .rfSend :=
  ⟨by decide, by decide, by decide, by decide, by decide, by decide, by decide, by decide⟩
theorem witness_Reset : ({ rst := true } : HostIn).rst = true ∧ ({ rst := true } : DevIn).rst = true := by decide

theorem hostA_ok : blockOk sysA.params.capTxPay sysA.host ∧ hostOk sysA.params sysA.host := by
  refine ⟨⟨⟨by decide, by decide⟩, ⟨by decide, by decide⟩, by decide, fun a h => absurd h (Nat.not_lt_zero a), by decide⟩, ?_⟩
  unfold hostOk
  decide
theorem deviceA_ok : blockOk Config.devCapTx sysA.device ∧ deviceOk sysA.device := by
  refine ⟨⟨⟨by decide, by decide⟩, ⟨by decide, by decide⟩, by decide, fun a h => absurd h (Nat.not_lt_zero a), by decide⟩, ?_⟩
  unfold deviceOk
  decide
theorem dispA_ok : dispatcherOk dispA := ⟨by decide, by decide, rfl, rfl, fun _ _ h => nomatch h⟩
/-- The known system meets the invariants, with any move to come. -/
theorem sysA_SafeInv (m : Move) : SafeInv (withMove m sysA) :=
  ⟨⟨hostA_ok.1, hostA_ok.2, deviceA_ok.1, deviceA_ok.2, dispA_ok⟩,
    (fun h => Bool.noConfusion h : sendReady sysA.host), (fun h => Bool.noConfusion h : sendReady sysA.device),
    fun _ _ h => absurd (h : (none : Option (Byte × Nat)) = some _) (Option.some_ne_none _).symm⟩
/-- The clauses that write R180 and R210 out: an idle and a sending HOST, a receiving, a dispatching and a sending DEVICE,
each at its invariant. -/
theorem witness_StepRuns_selection :
    hostOk sysA.params sysA.host ∧ sysA.host.trState = .hIdle ∧
    hostOk (hostSending .data 0 0).params (hostSending .data 0 0).host ∧ (hostSending .data 0 0).host.trState = .hSend ∧
    (shows (exec .hostSend (hostSending .data 0 0)) (fun t => t.host.encRun)) = some true ∧
    deviceOk sysA.device ∧ sysA.device.trState = .dRecv ∧
    deviceOk (command 0 []).device ∧ (command 0 []).device.trState = .dDispatch ∧ (command 0 []).disp.answer = none ∧
    deviceOk (sending .data 0 []).device ∧ (sending .data 0 []).device.trState = .dSend := by
  refine ⟨hostA_ok.2, by decide, ?_, by decide, by decide, deviceA_ok.2, by decide, ?_, by decide, by decide, ?_, by decide⟩
  · unfold hostOk; decide
  · unfold deviceOk; decide
  · unfold deviceOk; decide
/-- A service with nothing waiting, and with a held answer. -/
theorem witness_StepRuns_noService :
    sysA.device.trState ≠ .dDispatch ∧
    ({ command 0 [] with disp := { dispA with answer := some (0, 0) } } : State).disp.answer ≠ none := by decide
theorem witness_Identity : Inv (withMove .dispatcher sysA) ∧ waiting (command 0x01 []) [] :=
  ⟨(sysA_SafeInv _).1, waiting_command _ _⟩
theorem witness_InvKept :
    Inv (withMove (.host { start := some (1, 0, 0) }) sysA) ∧
    (shows (step (withMove (.host { start := some (1, 0, 0) }) sysA)) (fun t => t.host.busy)) = some true :=
  ⟨(sysA_SafeInv _).1, by decide⟩
theorem witness_Dutiful :
    SafeInv (withMove (.host { start := some (0xFE, 0, 0) }) sysA) ∧
    ∀ m, (withMove (.host { start := some (0xFE, 0, 0) }) sysA).script.head? = some m →
      safeMove (withMove (.host { start := some (0xFE, 0, 0) }) sysA) m := by
  refine ⟨sysA_SafeInv _, fun m h => ?_⟩
  cases h
  refine ⟨fun a h => absurd (h : (none : Option Nat) = some a) (Option.some_ne_none a).symm, fun _ id op n h => ?_⟩
  cases h
  exact ⟨by decide, by decide, fun _ h => absurd h (Nat.not_lt_zero _)⟩
theorem witness_StepsAsk : Inv (withMove (.device { rxValid := true }) sysA) := (sysA_SafeInv _).1
theorem witness_Priority :
    hostOk (hostReceiving false false [] 24).params (hostReceiving false false [] 24).host ∧
    (hostReceiving false false [] 24).host.idleCnt + 1 = (hostReceiving false false [] 24).params.nIdle ∧
    hostOk (hostReceiving false false [] 23).params (hostReceiving false false [] 23).host ∧
    (hostReceiving false false [] 23).host.idleCnt + 1 < (hostReceiving false false [] 23).params.nIdle ∧
    hostOk (hostSending .data 0 0).params (hostSending .data 0 0).host := by
  refine ⟨?_, by decide, ?_, by decide, ?_⟩ <;> (unfold hostOk; decide)
theorem witness_PortWrites :
    sysA.host.busy = false ∧ 1020 < sysA.params.capTxPay ∧ sysA.params.capTxPay ≤ 1021 ∧
    (hostSending .data 0 0).host.busy = true ∧ (command 0 []).device.trState = .dDispatch ∧
    sysA.device.trState ≠ .dDispatch := by decide
/-- 10_state R43 at the capacity of the DEVICE: index 253 is written, index 254 is not; and 20_memory R73 in a cycle that
accepts a byte of a frame being sent: nothing is written. -/
theorem test_portWrite_bounds :
    shows (deviceCycle { pw := some (253, 7) } (command 0 [])) (fun t => Memory.read t.device.txpay 253) = some (some 7) ∧
    shows (deviceCycle { pw := some (254, 7) } (command 0 [])) (fun t => t.device.txpay) = some [] ∧
    shows (deviceCycle { txReady := true, pw := some (0, 7) } (sending .data 0 [])) (fun t => (t.device.txpay, t.dh)) =
      some ([], [0x41]) := by decide
theorem witness_Stops :
    sysA.host.trState = .hIdle ∧ sysA.params.capTxPay < 1022 ∧ (command 0 []).device.trState = .dDispatch ∧
    Memory.read sysA.host.rxbuf 255 = none ∧
    ({ (hostSending .data 2 0).host with txPlen := 1, encN := 3 } : Block).frameByte 2 = none := by decide
theorem witness_DecodeOfEncodedFrame :
    decodeEvents 2 [.byte 0x41, .byte 0xFF, .byte 0xFF, .byte 0xFF, .byte 0xAF] = some (.frame [0x41, 0xFF], []) ∧
    ([0x41, 0xFF] : List Byte).length ≤ 2 ∧ 1 < ([0x41, 0xFF] : List Byte).length := by decide
theorem witness_EncodedLength : (encodeFrame [0x41, 0xFF]).length = 5 ∧ (encodeFrame [0xFF]).length = 4 := by decide

/-- A response of one byte to come, the channel refusing one cycle. -/
def respondState : State :=
  { command 0x10 [] with
    device := { (command 0x10 []).device with txpay := [(0, 0x20)] }
    script := .device { ack := .port 0x00 1 } ::
      ([true, false, true, true, true, true].map (fun c => Move.device { txReady := c }) ++ []) }
theorem witness_DeviceSends :
    encodeFrame (respondState.device.curId :: 0x00 :: [0x20]) = [0x5A, 0x00, 0x20, 0xFF, 0xAF] ∧
    respondState.device.trState = .dDispatch ∧ Memory.readRange respondState.device.txpay 0 1 = some [0x20] ∧
    respondState.dh.length + 5 ≤ respondState.params.chDepth ∧
    [true, false, true, true, true, true].count true = 5 := by decide
/-- A command of four bytes to come. -/
def receiveState : State :=
  { sysA with
    hd := [0x5A, 0x00, 0xFF, 0xAF] ++ [0x01]
    script := List.replicate 4 (Move.device { rxValid := true }) ++ [] }
theorem witness_DeviceReceives :
    receiveState.device.trState = .dRecv ∧ receiveState.device.decRun = true ∧ receiveState.device.decLen = 0 ∧
    decodeBytes 256 [0x5A, 0x00, 0xFF, 0xAF] = some (.frame [0x5A, 0x00], []) ∧
    decodeBytes 256 [0xFF, 0xAF] = some (.frame [], []) ∧
    decodeBytes 256 [0xFF, 0x00, 0xFF, 0xAF] = some (.framingError, []) :=
  ⟨rfl, rfl, rfl, by decide, by decide, by decide⟩
/-- A call to come, and its response. -/
def callState : State :=
  { sysA with
    dh := eventBytes ([0x5A, 0x00, 0xFF, 0xAF].map (fun b => CallEvent.dec (.byte b))) ++ []
    script := .host { start := some (0x5A, 0x00, 0) } ::
      ([true, true, true, true].map (fun c => Move.host { txReady := c }) ++
        (([0x5A, 0x00, 0xFF, 0xAF].map (fun b => CallEvent.dec (.byte b))).flatMap (callMoves sysA.params.nIdle) ++ [])) }
theorem witness_HostCallRelation :
    hostCallFn 0x00 [] 0x5A none ([0x5A, 0x00, 0xFF, 0xAF].map (fun b => CallEvent.dec (.byte b))) =
      (encodeFrame [0x5A, 0x00], some (.ok, 0x00, [])) ∧
    callState.host.trState = .hIdle ∧ Memory.readRange callState.host.txpay 0 0 = some [] ∧
    1 ≤ callState.params.nIdle ∧ (encodeFrame [0x5A, 0x00]).length = 4 ∧
    callState.hd.length + 4 ≤ callState.params.chDepth :=
  ⟨by decide, rfl, rfl, by decide, by decide, by decide⟩
/-- A call that fails after two accepted bytes, to come. -/
def failState : State :=
  { sysA with
    script := .host { start := some (0x5A, 0x00, 0) } ::
      ([true, true].map (fun c => Move.host { txReady := c }) ++ (.host { chFail := true } :: [])) }
theorem witness_HostCallRelation_fail :
    failState.host.trState = .hIdle ∧ 2 < (encodeFrame [0x5A, 0x00]).length ∧ [true, true].count true = 2 := by decide
/-- A call to come, through the dispatcher and back. -/
def roundState : State :=
  { sysA with
    script := .host { start := some (0x5A, 0x10, 0) } ::
      (List.replicate 4 (Move.host { txReady := true }) ++
      (List.replicate 4 (Move.device { rxValid := true }) ++
      (.dispatcher :: .device { ack := .own } ::
      (List.replicate 5 (Move.device { txReady := true }) ++
      (List.replicate 5 (Move.host { rxValid := true }) ++ []))))) }
theorem witness_CallBringsBack :
    dispatchReply 0x10 roundState.disp [] (Config.freeChoice roundState.freeCtr) = ⟨0x00, [32], dispA, none⟩ ∧
    (encodeFrame [0x5A, 0x10]).length = 4 ∧ (encodeFrame (0x5A :: 0x00 :: [32])).length = 5 ∧
    roundState.host.trState = .hIdle ∧ roundState.device.trState = .dRecv ∧ roundState.device.decRun = true ∧
    roundState.hd = [] ∧ roundState.dh = [] ∧ roundState.disp.answer = none ∧
    Memory.readRange roundState.host.txpay 0 0 = some [] ∧ 5 ≤ roundState.params.chDepth :=
  ⟨rfl, by decide, by decide, rfl, rfl, rfl, rfl, rfl, rfl, rfl, by decide⟩

end Sys2Proof.Tests
end

/-! PROOF of O60 (00_scope R7). A block that sends or receives is followed byte by byte as a relation on its registers
(`Block.Sends`, `Block.Takes`), which the encoding of a frame satisfies; two loops, each proved once for both roles,
carry that relation to the cycles of the system; the stages of a call are then put one after the other. -/

namespace Sys2Proof.Machine

/-! ### Runs -/

section
variable (M : Host.Core)

/-- A run is its first step, then the rest of it. -/
theorem run_of_step {s u : M.State} (n : Nat) (h : M.step s = .next u) : M.run (n + 1) s = M.run n u := by
  simp only [Host.Core.run, h]

theorem run_one (s : M.State) : M.run 1 s = M.step s := by
  simp only [Host.Core.run]
  cases M.step s <;> rfl

/-- A run of `m` steps and then one of `n`. -/
theorem run_add {m : Nat} (n : Nat) {s u : M.State} (h : M.run m s = .next u) : M.run (m + n) s = M.run n u := by
  induction m generalizing s with
  | zero => cases h; rw [Nat.zero_add]
  | succ m ih =>
    rw [Nat.succ_add]
    simp only [Host.Core.run] at h ⊢
    split at h
    · exact ih h
    · cases h
    · cases h
end

/-- `n` steps of the system, its state written as `State`. -/
def runSteps (n : Nat) (s : State) : Out := Host.Core.run Sys2Proof.core n s

theorem runSteps_of_step {s u : State} (n : Nat) (h : step s = .next u) : runSteps (n + 1) s = runSteps n u :=
  run_of_step Sys2Proof.core n h

theorem runSteps_one (s : State) : runSteps 1 s = step s := run_one Sys2Proof.core s

theorem runSteps_add {m : Nat} (n : Nat) {s u : State} (h : runSteps m s = .next u) :
    runSteps (m + n) s = runSteps n u :=
  run_add Sys2Proof.core n h

/-- With a move left, a step is that move. -/
theorem step_of_script {s : State} {m : Move} {rest : List Move} (h : s.script = m :: rest) :
    step s = runMove m { s with script := rest } := by
  simp only [step, h]

/-! ### Buffers: single bytes of a range -/

/-- A range that can be read gives every byte of it. -/
theorem read_of_readRange {m : Memory} {n a : Nat} {l : List Byte} (h : Memory.readRange m a n = some l) {k : Nat}
    (hk : k < n) : Memory.read m (a + k) = l[k]? := by
  induction n generalizing a l k with
  | zero => omega
  | succ n ih =>
    simp only [Memory.readRange] at h
    split at h
    · next v t hv ht =>
      cases h
      cases k with
      | zero => simpa using hv
      | succ k => simpa [Nat.add_assoc, Nat.add_comm 1] using ih ht (k := k) (by omega)
    · cases h

/-- Writing `l` after `v`, the first byte written is `v`. -/
theorem read_writeList_first (m : Memory) (a : Nat) (v : Byte) (l : List Byte) :
    Memory.read (Memory.writeList m a (v :: l)) a = some v := by
  rw [Memory.writeList, read_writeList_below l _ (Nat.lt_succ_self a), read_write_same]

/-! ### Encoding: the bytes a block sends, as a relation on its registers -/

/-- From index `i` on, the frame that the block encodes (40_encoder R137) is `f`. -/
def Block.frameFrom (b : Block) (i : Nat) (f : List Byte) : Prop :=
  i + f.length = b.encN ∧ ∀ k, k < f.length → b.frameByte (i + k) = f[k]?

theorem frameFrom_nil {b : Block} {i : Nat} : b.frameFrom i [] ↔ i = b.encN := by
  simp [Block.frameFrom]

theorem frameFrom_cons {b : Block} {i : Nat} {v : Byte} {f : List Byte} :
    b.frameFrom i (v :: f) ↔ b.frameByte i = some v ∧ b.frameFrom (i + 1) f := by
  constructor
  · rintro ⟨hn, hf⟩
    refine ⟨by simpa using hf 0 (by simp), by simp only [List.length_cons] at hn; omega, fun k hk => ?_⟩
    simpa [Nat.add_assoc, Nat.add_comm 1] using hf (k + 1) (by simpa using hk)
  · rintro ⟨h0, hn, hf⟩
    refine ⟨by simp only [List.length_cons]; omega, fun k hk => ?_⟩
    cases k with
    | zero => simpa using h0
    | succ k => simpa [Nat.add_assoc, Nat.add_comm 1] using hf k (by simpa using hk)

/-- The frame behind its two header bytes is the payload in `TXPAY`. -/
theorem frameFrom_of_readRange {b : Block} {p : List Byte} (hn : b.encN = 2 + p.length)
    (hp : Memory.readRange b.txpay 0 p.length = some p) : b.frameFrom 0 (b.hdr0 :: b.hdr1 :: p) := by
  refine frameFrom_cons.2 ⟨rfl, frameFrom_cons.2 ⟨rfl, hn.symm, fun k hk => ?_⟩⟩
  rw [← read_of_readRange hp hk, Nat.zero_add, Nat.add_comm _ k, Nat.zero_add]
  rfl

/-- The registers of `b` after its encode has sent everything (40_encoder R136). -/
def Block.encodeEnded (b : Block) : Block := { b with encIdx := b.encN, encPh := .done, encRun := false }

/-- Byte by byte through `Block.sendOnce`, a block that is encoding sends these bytes and comes to these registers. -/
inductive Block.Sends : Block → List Byte → Block → Prop
  | nil (b : Block) : Block.Sends b [] b
  | cons {b b' c : Block} {v : Byte} {w : List Byte} (run : b.encRun = true) (inside : b.encIdx ≤ b.encN)
      (once : b.sendOnce = some (v, b')) (rest : Block.Sends b' w c) : Block.Sends b (v :: w) c

/-- Nothing is sent once the encode has ended. -/
theorem sends_stopped {b c : Block} {w : List Byte} (h : b.Sends w c) (hb : b.encRun = false) : w = [] ∧ c = b := by
  cases h with
  | nil => exact ⟨rfl, rfl⟩
  | cons run => rw [hb] at run; cases run

/-! `Block.sendOnce` in the DATA phase, by the rows of 40_encoder R138. -/

theorem sendOnce_last {b : Block} (hph : b.encPh = .data) (hi : b.encIdx = b.encN) :
    b.sendOnce = some (Config.esc, { b with encPh := .term2 }) := by
  simp only [Block.sendOnce, hph]
  exact if_pos hi

theorem sendOnce_esc {b : Block} (hph : b.encPh = .data) (hi : b.encIdx ≠ b.encN)
    (hv : b.frameByte b.encIdx = some Config.esc) : b.sendOnce = some (Config.esc, { b with encPh := .stuff2 }) := by
  simp only [Block.sendOnce, hph, hv, hi, if_false]
  exact if_pos rfl

theorem sendOnce_literal {b : Block} {v : Byte} (hph : b.encPh = .data) (hi : b.encIdx ≠ b.encN)
    (hv : b.frameByte b.encIdx = some v) (hesc : v ≠ Config.esc) :
    b.sendOnce = some (v, { b with encIdx := b.encIdx + 1 }) := by
  simp only [Block.sendOnce, hph, hv, hi, if_false]
  exact if_neg hesc

/-- 40_encoder R139: from its first data byte on, the encoder sends `Encode` of the frame and stops. -/
theorem sends_encodeFrame {b : Block} {f : List Byte} (hrun : b.encRun = true) (hph : b.encPh = .data)
    (hf : b.frameFrom b.encIdx f) : b.Sends (encodeFrame f) b.encodeEnded := by
  induction f generalizing b with
  | nil =>
    have hi : b.encIdx = b.encN := frameFrom_nil.1 hf
    have ended : b.encodeEnded = { b with encPh := .done, encRun := false } := by rw [Block.encodeEnded, ← hi]
    rw [ended]
    exact .cons hrun (Nat.le_of_eq hi) (sendOnce_last hph hi) (.cons hrun (Nat.le_of_eq hi) rfl (.nil _))
  | cons v f ih =>
    obtain ⟨hv, hrest⟩ := frameFrom_cons.1 hf
    have hlt : b.encIdx < b.encN := by have := hrest.1; omega
    have inside := Nat.le_of_lt hlt
    by_cases hesc : v = Config.esc
    · subst hesc
      rw [encodeFrame, if_pos rfl]
      refine .cons hrun inside (sendOnce_esc hph (Nat.ne_of_lt hlt) hv) (.cons hrun inside rfl ?_)
      exact ih (b := { b with encIdx := b.encIdx + 1, encPh := .data }) hrun rfl hrest
    · rw [encodeFrame, if_neg hesc]
      refine .cons hrun inside (sendOnce_literal hph (Nat.ne_of_lt hlt) hv hesc) ?_
      exact ih (b := { b with encIdx := b.encIdx + 1 }) hrun hph hrest

/-- An accepted byte changes the encoder's registers alone, and an encoder that stops is DONE. -/
theorem sendOnce_writes {b b' : Block} {v : Byte} (h : b.sendOnce = some (v, b')) :
    ∃ run ph idx, b' = { b with encRun := run, encPh := ph, encIdx := idx } ∧
      (run = b.encRun ∨ run = false ∧ ph = .done) := by
  unfold Block.sendOnce at h
  split at h
  · split at h
    · cases h; exact ⟨_, _, _, rfl, .inl rfl⟩
    · split at h
      · cases h
      · split at h
        · cases h; exact ⟨_, _, _, rfl, .inl rfl⟩
        · cases h; exact ⟨_, _, _, rfl, .inl rfl⟩
  · cases h; exact ⟨_, _, _, rfl, .inl rfl⟩
  · cases h; exact ⟨_, _, _, rfl, .inr ⟨rfl, rfl⟩⟩
  · cases h

/-- An accepted byte leaves the state of the transport alone. -/
theorem sendOnce_trState {b b' : Block} {v : Byte} (h : b.sendOnce = some (v, b')) : b'.trState = b.trState := by
  obtain ⟨_, _, _, rfl, -⟩ := sendOnce_writes h
  rfl

/-- An encoder that stops has reached DONE (40_encoder R136). -/
theorem sendOnce_done {b b' : Block} {v : Byte} (h : b.sendOnce = some (v, b')) (hrun : b.encRun = true)
    (hstop : b'.encRun = false) : b'.encPh = .done := by
  obtain ⟨run, ph, idx, rfl, same | ⟨-, hph⟩⟩ := sendOnce_writes h
  · rw [← same] at hrun
    exact absurd (hrun.symm.trans hstop) (by decide)
  · exact hph

/-- The encoder operation that the table selects (40_encoder R138) does what `Block.sendOnce` says. -/
theorem encoderOp_of_sendOnce {r : Role} {s : State} {v : Byte} {b' : Block} (hrun : (s.block r).encRun = true)
    (hle : (s.block r).encIdx ≤ (s.block r).encN) (h : (s.block r).sendOnce = some (v, b')) :
    encoderOp r s = .next ((s.setBlock r b').emit r v) := by
  unfold Block.sendOnce at h
  unfold encoderOp Block.encoderFetch
  split at h
  · next hph =>
    split at h
    · next hi =>
      cases h
      simp [hph, hi, decode, decodeEmit, encoderRun, encTerm1On, hrun, Config.esc]
    · next hi =>
      have hlt : (s.block r).encIdx < (s.block r).encN := Nat.lt_of_le_of_ne hle hi
      split at h
      · cases h
      · next x hx =>
        split at h
        · next hesc =>
          cases h
          simp [hph, hi, hx, hesc, hlt, decode, decodeEmit, encoderRun, encStuff1On, hrun, Config.esc]
        · next hesc =>
          cases h
          have hesc' : v ≠ Config.esc := hesc
          simp [hph, hi, hx, hesc', hlt, decode, decodeEmit, encoderRun, encLitOn, hrun]
  · next hph => cases h; simp [hph, decode, decodeEmit, encoderRun, encStuff2On, hrun, Config.esc]
  · next hph => cases h; simp [hph, decode, decodeEmit, encoderRun, encTerm2On, hrun, Config.endMark]
  · cases h

/-! ### Decoding: the bytes a block takes, as a relation on its registers -/

/-- The decoder waits for the first byte of a frame (41_decoder R151). -/
def Block.listening (b : Block) : Prop :=
  b.decRun = true ∧ b.decEsc = false ∧ b.decErr = false ∧ b.decLen = 0

/-- The registers of `b` after its decode has added the frame bytes `f` to `RXBUF` and met the terminator
(41_decoder R155, R156). -/
def Block.decodeEnded (b : Block) (f : List Byte) : Block :=
  { b with
    decEsc := false, decRun := false, decRes := .frameOk, idleCnt := 0, decLen := b.decLen + f.length
    rxbuf := Memory.writeList b.rxbuf b.decLen f }

/-! `Block.recvOnce` by the rows of 41_decoder R152. -/

theorem recvOnce_esc {b : Block} (he : b.decEsc = false) :
    b.recvOnce Config.esc = { b with decEsc := true, idleCnt := 0 } := by
  rw [Block.recvOnce, if_neg (by simp [he])]
  exact if_pos rfl

theorem recvOnce_data {b : Block} {v : Byte} (he : b.decEsc = false) (hv : v ≠ Config.esc) :
    b.recvOnce v = { b.append v with idleCnt := 0 } := by
  rw [Block.recvOnce, if_neg (by simp [he])]
  exact if_neg hv

theorem recvOnce_end {b : Block} (he : b.decEsc = true) :
    b.recvOnce Config.endMark =
      { b with decEsc := false, decRun := false, idleCnt := 0, decRes := resAtEnd b.decErr } := by
  rw [Block.recvOnce, if_pos he]
  exact if_pos rfl

theorem recvOnce_litesc {b : Block} (he : b.decEsc = true) :
    b.recvOnce Config.esc = { b.append Config.esc with decEsc := false, idleCnt := 0 } := by
  rw [Block.recvOnce, if_pos he, if_neg (by decide)]
  exact if_pos rfl

theorem recvOnce_badesc {b : Block} {v : Byte} (he : b.decEsc = true) (hend : v ≠ Config.endMark)
    (hesc : v ≠ Config.esc) : b.recvOnce v = { b with decEsc := false, decErr := true, idleCnt := 0 } := by
  rw [Block.recvOnce, if_pos he, if_neg (show v ≠ 0xAF from hend)]
  exact if_neg hesc

/-- Byte by byte through `Block.recvOnce`, a block takes these bytes, its decode running before each, and comes to
these registers. -/
inductive Block.Takes : Block → List Byte → Block → Prop
  | nil (b : Block) : Block.Takes b [] b
  | cons {b c : Block} {v : Byte} {w : List Byte} (run : b.decRun = true) (rest : Block.Takes (b.recvOnce v) w c) :
      Block.Takes b (v :: w) c

/-- Nothing is taken once the decode has ended. -/
theorem takes_stopped {b c : Block} {w : List Byte} (h : b.Takes w c) (hb : b.decRun = false) : w = [] ∧ c = b := by
  cases h with
  | nil => exact ⟨rfl, rfl⟩
  | cons run => rw [hb] at run; cases run

/-- An Append without an earlier error and below the capacity stores its byte (41_decoder R155). -/
theorem append_stores {b : Block} (v : Byte) (herr : b.decErr = false) (hlen : b.decLen < Config.capRx) :
    b.append v = { b with rxbuf := Memory.write b.rxbuf b.decLen v, decLen := b.decLen + 1 } := by
  rcases append_cases b v with ⟨h, -⟩ | ⟨-, h, -⟩ | ⟨-, -, h⟩
  · rw [herr] at h; cases h
  · omega
  · exact h

/-- An Append does not look at the escape flag. -/
theorem append_clearEsc (b : Block) (v : Byte) :
    ({ b with decEsc := false } : Block).append v = { b.append v with decEsc := false } := by
  unfold Block.append
  split
  · rfl
  · split <;> rfl

/-- 41_decoder R165: a decoder that is in sync and has room for the frame takes its encoding and holds the frame. -/
theorem takes_encodeFrame {b : Block} {f : List Byte} (hrun : b.decRun = true) (hesc : b.decEsc = false)
    (herr : b.decErr = false) (hlen : b.decLen + f.length ≤ Config.capRx) :
    b.Takes (encodeFrame f) (b.decodeEnded f) := by
  induction f generalizing b with
  | nil =>
    have last : (b.recvOnce Config.esc).recvOnce Config.endMark = b.decodeEnded [] := by
      rw [recvOnce_esc hesc, recvOnce_end rfl]
      simp [Block.decodeEnded, resAtEnd, herr, Memory.writeList]
    refine .cons hrun (.cons (by rw [recvOnce_esc hesc]; exact hrun) ?_)
    rw [last]
    exact .nil _
  | cons v f ih =>
    simp only [List.length_cons] at hlen
    have room : b.decLen < Config.capRx := by omega
    have stored := append_stores v herr room
    have ended : b.decodeEnded (v :: f) = ({ b.append v with idleCnt := 0 } : Block).decodeEnded f := by
      rw [stored]
      simp [Block.decodeEnded, Memory.writeList, Nat.add_assoc, Nat.add_comm 1]
    have rest : Block.Takes { b.append v with idleCnt := 0 } (encodeFrame f) (b.decodeEnded (v :: f)) := by
      rw [ended, stored]
      exact ih hrun hesc herr (by simp only; omega)
    by_cases hv : v = Config.esc
    · have twice : (b.recvOnce Config.esc).recvOnce Config.esc = { b.append v with idleCnt := 0 } := by
        rw [recvOnce_esc hesc, recvOnce_litesc rfl, stored, hv, hesc,
          append_stores (b := { b with decEsc := true, idleCnt := 0 }) Config.esc herr room]
      rw [encodeFrame, if_pos hv]
      refine .cons hrun (.cons (by rw [recvOnce_esc hesc]; exact hrun) ?_)
      rw [twice]
      exact rest
    · rw [encodeFrame, if_neg hv]
      refine .cons hrun ?_
      rw [recvOnce_data hesc hv]
      exact rest

/-- A delivered byte leaves the state of the transport alone. -/
theorem recvOnce_trState (b : Block) (v : Byte) : (b.recvOnce v).trState = b.trState := by
  unfold Block.recvOnce
  split
  · split
    · rfl
    · split
      · exact append_trState b 0xFF
      · rfl
  · split
    · rfl
    · exact append_trState b v

/-- The decoder operation that the table selects (41_decoder R152) does what `Block.recvOnce` says. -/
theorem decoderOp_of_decRun {r : Role} {s : State} (v : Byte) (hrun : (s.block r).decRun = true) :
    decoderOp r v s = .next (s.setBlock r ((s.block r).recvOnce v)) := by
  obtain ⟨t, ht⟩ := decoderOp_total v hrun
  rw [ht]
  rcases decoderOp_next ht with ⟨rfl, h⟩ | h | ⟨rfl, h⟩ | ⟨rfl, h⟩ | h
  · obtain ⟨-, he, rfl⟩ := decEscOn_next h
    rw [recvOnce_esc he]
  · obtain ⟨-, he, hne, rfl⟩ := decDataOn_next h
    rw [recvOnce_data he hne, Block.restartTimer]
  · obtain ⟨-, he, rfl⟩ := decEndOn_next h
    rw [recvOnce_end he]
  · obtain ⟨-, he, rfl⟩ := decLitescOn_next h
    rw [recvOnce_litesc he, Block.restartTimer, append_clearEsc]
  · obtain ⟨-, he, hend, hesc, rfl⟩ := decBadescOn_next h
    rw [recvOnce_badesc he hend hesc]

/-! ### One cycle of a block -/

/-- The system in a cycle of the block `r`, its move taken from the script. -/
def State.inCycle (s : State) (r : Role) (rest : List Move) : State := { s with script := rest, turn := r }

@[simp] theorem inCycle_block (s : State) (r r' : Role) (rest : List Move) :
    (s.inCycle r rest).block r' = s.block r' := by cases r' <;> rfl
@[simp] theorem inCycle_stream (s : State) (r r' : Role) (rest : List Move) :
    (s.inCycle r rest).stream r' = s.stream r' := by cases r' <;> rfl
@[simp] theorem inCycle_host (s : State) (r : Role) (rest : List Move) : (s.inCycle r rest).host = s.host := rfl
@[simp] theorem inCycle_device (s : State) (r : Role) (rest : List Move) : (s.inCycle r rest).device = s.device := rfl
@[simp] theorem inCycle_script (s : State) (r : Role) (rest : List Move) : (s.inCycle r rest).script = rest := rfl
@[simp] theorem inCycle_params (s : State) (r : Role) (rest : List Move) : (s.inCycle r rest).params = s.params := rfl
@[simp] theorem inCycle_disp (s : State) (r : Role) (rest : List Move) : (s.inCycle r rest).disp = s.disp := rfl

/-- Without a port write a cycle starts from the state as it is. -/
theorem clientWrite_none {i : HostIn} (h : i.pw = none) (s : State) : clientWrite i s = s := by
  rw [clientWrite, h]
  rfl

theorem dispatcherWrite_none {i : DevIn} (h : i.pw = none) (s : State) : dispatcherWrite i s = s := by
  rw [dispatcherWrite, h]
  rfl

/-- A HOST cycle with neither reset nor port access is the operation it selects. -/
theorem step_host_of_select {i : HostIn} {s : State} {rest : List Move} {op : Instr} (hs : s.script = .host i :: rest)
    (hrst : i.rst = false) (hpw : i.pw = none) (hrd : i.rd = none)
    (hop : hostSelect i (s.inCycle .host rest) = some op) :
    step s = andThen (exec op (hostBefore op (s.inCycle .host rest))) (hostAfter op) := by
  rw [step_of_script hs]
  change hostCycle i (s.inCycle .host rest) = _
  simp [hostCycle, hrst, hrd, Block.readFault, hop, clientWrite_none hpw]

/-- A DEVICE cycle with neither reset nor port access is the operation it selects. -/
theorem step_device_of_select {i : DevIn} {s : State} {rest : List Move} {op : Instr}
    (hs : s.script = .device i :: rest) (hrst : i.rst = false) (hpw : i.pw = none) (hrd : i.rd = none)
    (hop : deviceSelect i (s.inCycle .device rest) = some op) :
    step s = exec op (deviceBefore op (s.inCycle .device rest)) := by
  rw [step_of_script hs]
  change deviceCycle i (s.inCycle .device rest) = _
  simp [deviceCycle, hrst, hrd, Block.readFault, hop, dispatcherWrite_none hpw]

/-! ### The send loop of either block -/

/-- The state of the transport in which a block sends (10_state R29). -/
def sendingIn : Role → TrState
  | .host => .hSend
  | .device => .dSend

/-- The state of the transport in which a block receives (10_state R29). -/
def receivingIn : Role → TrState
  | .host => .hRecv
  | .device => .dRecv

/-- A cycle of a block whose channel accepts a byte. -/
def acceptCycle : Role → Move
  | .host => .host { txReady := true }
  | .device => .device { txReady := true }

/-- A block that has sent its last byte receives: the decoder starts (42_host_correlator R185,
43_device_responder R216). -/
def Block.turnToReceive (b : Block) (r : Role) : Block := { b.decStart with trState := receivingIn r }

theorem turnToReceive_listening (b : Block) (r : Role) : (b.turnToReceive r).listening := ⟨rfl, rfl, rfl, rfl⟩

/-- The system after the encoder of the block `r` has had a byte accepted: it goes on sending, or receives. -/
def State.afterAccept (t : State) (r : Role) : State :=
  if (t.block r).encRun = false then t.setBlock r ((t.block r).turnToReceive r) else t

theorem afterAccept_running {t : State} {r : Role} (h : (t.block r).encRun = true) : t.afterAccept r = t := by
  rw [State.afterAccept, h]
  rfl

theorem afterAccept_stopped {t : State} {r : Role} (h : (t.block r).encRun = false) :
    t.afterAccept r = t.setBlock r ((t.block r).turnToReceive r) := if_pos h

/-- HOST.SEND, and HOST.ENTER_RECV after the last byte (42_host_correlator R183, R185). -/
theorem hostSend_of_encoderOp {s t : State} (htr : s.host.trState = .hSend) (hrun : s.host.encRun = true)
    (enc : encoderOp .host s = .next t) (htr' : t.host.trState = .hSend)
    (hdone : t.host.encRun = false → t.host.encPh = .done) :
    andThen (exec .hostSend s) (hostAfter .hostSend) = .next (t.afterAccept .host) := by
  have send : exec .hostSend s = .next t := (if_pos ⟨htr, hrun⟩).trans enc
  rw [send, andThen_of_next, hostAfter, State.afterAccept, block_host]
  split
  · next hend => exact if_pos ⟨htr', hend, hdone hend⟩
  · rfl

/-- DEV.SEND (43_device_responder R216). -/
theorem devSend_of_encoderOp {s t : State} (htr : s.device.trState = .dSend) (hrun : s.device.encRun = true)
    (enc : encoderOp .device s = .next t) : exec .devSend s = .next (t.afterAccept .device) := by
  have send : exec .devSend s = _ := if_pos ⟨htr, hrun⟩
  rw [send, enc, andThen_of_next, State.afterAccept, block_device]
  split <;> rfl

/-- A cycle in which the channel accepts the next byte of a block that sends. -/
theorem step_accept {r : Role} {s : State} {rest : List Move} {v : Byte} {b : Block}
    (hs : s.script = acceptCycle r :: rest) (htr : (s.block r).trState = sendingIn r)
    (hrun : (s.block r).encRun = true) (hle : (s.block r).encIdx ≤ (s.block r).encN)
    (h : (s.block r).sendOnce = some (v, b)) :
    step s = .next ((((s.inCycle r rest).setBlock r b).emit r v).afterAccept r) := by
  have enc : encoderOp r (s.inCycle r rest) = .next (((s.inCycle r rest).setBlock r b).emit r v) :=
    encoderOp_of_sendOnce (by simpa using hrun) (by simpa using hle) (by simpa using h)
  have hb : b.trState = sendingIn r := (sendOnce_trState h).trans htr
  cases r with
  | host =>
    have htr' : s.host.trState = .hSend := htr
    have hrun' : s.host.encRun = true := hrun
    have sel : hostSelect { txReady := true } (s.inCycle .host rest) = some .hostSend := by
      simp [hostSelect, Block.txValid, htr', hrun']
    rw [step_host_of_select hs rfl rfl rfl sel]
    exact hostSend_of_encoderOp htr hrun enc (by simpa [sendingIn] using hb) (by simpa using sendOnce_done h hrun)
  | device =>
    have htr' : s.device.trState = .dSend := htr
    have hrun' : s.device.encRun = true := hrun
    have sel : deviceSelect { txReady := true } (s.inCycle .device rest) = some .devSend := by
      simp [deviceSelect, Block.txValid, htr', hrun']
    rw [step_device_of_select hs rfl rfl rfl sel]
    exact devSend_of_encoderOp htr hrun enc

/-- A channel with room takes the byte (20_memory R71). -/
theorem emit_of_room {s : State} {r : Role} (v : Byte) (h : (s.stream r).length < s.params.chDepth) :
    s.emit r v = s.setStream r (s.stream r ++ [v]) := if_pos h

/-- The send loop: with room in the channel, cycle by cycle everything that the encoder sends joins the stream, and then
the block receives (42_host_correlator R183, R185, 43_device_responder R216). -/
theorem run_sends {r : Role} {b c : Block} {w : List Byte} (h : b.Sends w c) {s : State} {rest : List Move}
    (hb : s.block r = b) (hrun : b.encRun = true) (hstop : c.encRun = false) (htr : b.trState = sendingIn r)
    (hroom : (s.stream r).length + w.length ≤ s.params.chDepth)
    (hs : s.script = List.replicate w.length (acceptCycle r) ++ rest) :
    runSteps w.length s =
      .next (((s.inCycle r rest).setBlock r (c.turnToReceive r)).setStream r (s.stream r ++ w)) := by
  induction h generalizing s with
  | nil b => rw [hrun] at hstop; cases hstop
  | @cons b b' c v w run inside once more ih =>
    subst hb
    simp only [List.length_cons] at hroom
    have st := step_accept hs htr run inside once
    rw [emit_of_room v (by simp only [setBlock_stream, inCycle_stream, setBlock_params, inCycle_params]; omega)] at st
    rw [List.length_cons, runSteps_of_step _ st]
    by_cases hend : b'.encRun = false
    · obtain ⟨rfl, rfl⟩ := sends_stopped more hend
      rw [afterAccept_stopped (by simpa using hend)]
      cases r <;> rfl
    · have hgo : b'.encRun = true := by simpa using hend
      rw [afterAccept_running (by simpa using hgo)]
      rw [ih (by simp) hgo hstop ((sendOnce_trState once).trans htr) (by simp; omega) (by simp)]
      cases r <;> simp [State.inCycle, State.setBlock, State.setStream, State.stream]

/-! ### The receive loop of either block -/

/-- A cycle of a block whose channel offers a byte. -/
def offerCycle : Role → Move
  | .host => .host { rxValid := true }
  | .device => .device { rxValid := true }

/-- What a block does when its decode ends (42_host_correlator R186, 43_device_responder R211). -/
def judge : Role → State → Out
  | .host => validateOp
  | .device => afterDecode

/-- The next byte of the stream a block reads is delivered while its decoder runs (10_state R41). -/
theorem delivered_of_stream {s : State} {r : Role} {v : Byte} {q : List Byte} (hrun : (s.block r).decRun = true)
    (hq : s.stream (otherRole r) = v :: q) : delivered s r true false false = some v := by
  simp [delivered, Block.rxReady, hrun, hq]

/-- Only a send has something to follow it in its cycle (42_host_correlator R185). -/
theorem andThen_hostAfter {op : Instr} (hop : op ≠ .hostSend) (o : Out) : andThen o (hostAfter op) = o := by
  cases o with
  | next u =>
    rw [andThen_of_next]
    unfold hostAfter
    split
    · exact absurd rfl hop
    · rfl
  | fault f => rfl
  | refused f => rfl

/-- A cycle in which the channel offers a byte to a block that receives (42_host_correlator R186,
43_device_responder R211). -/
theorem step_offer {r : Role} {s : State} {rest : List Move} {v : Byte} {q : List Byte}
    (hs : s.script = offerCycle r :: rest) (htr : (s.block r).trState = receivingIn r)
    (hrun : (s.block r).decRun = true) (hq : s.stream (otherRole r) = v :: q) {u : State}
    (hu : u = ((s.inCycle r rest).setStream (otherRole r) q).setBlock r ((s.block r).recvOnce v)) :
    step s = if (u.block r).decRun = false then judge r u else .next u := by
  have took : (s.inCycle r rest).takeFront r = (s.inCycle r rest).setStream (otherRole r) q := by
    rw [State.takeFront, inCycle_stream, hq]
    rfl
  have dec : decoderOp r v ((s.inCycle r rest).takeFront r) = .next u := by
    rw [decoderOp_of_decRun v (by simpa using hrun), took, hu]
    simp
  have hd := delivered_of_stream (s := s.inCycle r rest) (r := r) (by simpa using hrun) (by simpa using hq)
  cases r with
  | host =>
    have htr' : s.host.trState = .hRecv := htr
    have sel : hostSelect { rxValid := true } (s.inCycle .host rest) = some (.hostRecv v) := by
      simp [hostSelect, htr', hd]
    have op : exec (.hostRecv v) ((s.inCycle .host rest).takeFront .host) = _ :=
      if_pos (by simpa using ⟨htr, hrun⟩)
    rw [step_host_of_select hs rfl rfl rfl sel, hostBefore, op, dec, andThen_of_next]
    exact andThen_hostAfter (by simp) _
  | device =>
    have htr' : s.device.trState = .dRecv := htr
    have sel : deviceSelect { rxValid := true } (s.inCycle .device rest) = some (.devRecv v) := by
      simp [deviceSelect, htr', hd]
    have op : exec (.devRecv v) ((s.inCycle .device rest).takeFront .device) = _ :=
      if_pos (by simpa using ⟨htr, hrun⟩)
    rw [step_device_of_select hs rfl rfl rfl sel, deviceBefore, op, dec, andThen_of_next]
    rfl

/-- The receive loop: cycle by cycle the block takes what stands at the front of its stream, and when its decode ends
it judges the outcome (42_host_correlator R186, 43_device_responder R211). -/
theorem run_takes {r : Role} {b c : Block} {w : List Byte} (h : b.Takes w c) {s : State} {rest : List Move}
    {q : List Byte} (hb : s.block r = b) (hrun : b.decRun = true) (hstop : c.decRun = false)
    (htr : b.trState = receivingIn r) (hq : s.stream (otherRole r) = w ++ q)
    (hs : s.script = List.replicate w.length (offerCycle r) ++ rest) :
    runSteps w.length s =
      judge r (((s.inCycle r rest).setStream (otherRole r) q).setBlock r c) := by
  induction h generalizing s with
  | nil b => rw [hrun] at hstop; cases hstop
  | @cons b c v w run more ih =>
    subst hb
    have st := step_offer hs htr run hq rfl
    by_cases hend : ((s.block r).recvOnce v).decRun = false
    · obtain ⟨rfl, rfl⟩ := takes_stopped more hend
      rw [List.length_singleton, runSteps_one, st, if_pos (by simpa using hend)]
      rfl
    · rw [if_neg (by simpa using hend)] at st
      rw [List.length_cons, runSteps_of_step _ st]
      rw [ih (by simp) (by simpa using hend) hstop ((recvOnce_trState _ v).trans htr)
        (by cases r <;> rfl) (by simp)]
      cases r <;> rfl

/-! ### The dispatcher -/

/-- A command that waits is served with the dispatcher's reply (45_dispatcher_interface R230). -/
theorem serve_of_waiting {s : State} {p : List Byte} (h : waiting s p) (operation : String)
    (f : Dispatcher → List Byte → Bool → Reply) :
    serve operation f s = .next (answered s (f s.disp p (Config.freeChoice s.freeCtr))) := by
  obtain ⟨htr, hans, hp⟩ := h
  simp [serve, Block.dispReq, htr, hans, hp, answered]

/-- The operation of an opcode byte answers `Dispatch` of that byte (45_dispatcher_interface R230). -/
theorem exec_decodeOpcode {s : State} {p : List Byte} (h : waiting s p) (op : Byte) :
    exec (decodeOpcode op) s = .next (answered s (dispatchReply op s.disp p (Config.freeChoice s.freeCtr))) := by
  unfold dispatchReply decodeOpcode
  split <;> exact serve_of_waiting h _ _

/-- A command without parameters is answered with its value or nothing. -/
theorem answerGet_length_le (v : List Byte) (d : Dispatcher) (p : List Byte) (c : Bool) :
    (answerGet v d p c).payload.length ≤ v.length := by
  unfold answerGet
  split
  · exact Nat.le_refl _
  · exact Nat.zero_le _

/-! Every command with parameters answers with an empty payload (log 14). -/

theorem replySetOds_payload (d : Dispatcher) (p : List Byte) (c : Bool) : (replySetOds d p c).payload = [] := by
  unfold replySetOds
  split
  · rfl
  · split <;> rfl

theorem replySetPa_payload (d : Dispatcher) (p : List Byte) (c : Bool) : (replySetPa d p c).payload = [] := by
  unfold replySetPa
  split
  · rfl
  · split <;> rfl

theorem replySetFreq_payload (d : Dispatcher) (p : List Byte) (c : Bool) : (replySetFreq d p c).payload = [] := by
  unfold replySetFreq
  split <;> rfl

theorem replySetFdev_payload (d : Dispatcher) (p : List Byte) (c : Bool) : (replySetFdev d p c).payload = [] := by
  unfold replySetFdev
  split
  · split <;> rfl
  · rfl

theorem replySetEnc_payload (d : Dispatcher) (p : List Byte) (c : Bool) : (replySetEnc d p c).payload = [] := by
  unfold replySetEnc
  split
  · rfl
  · split <;> rfl
  · split <;> rfl

theorem replyAppendFrame_payload (d : Dispatcher) (p : List Byte) (c : Bool) :
    (replyAppendFrame d p c).payload = [] := by
  unfold replyAppendFrame
  split <;> rfl

theorem replyRfSend_payload (d : Dispatcher) (p : List Byte) (c : Bool) : (replyRfSend d p c).payload = [] := by
  unfold replyRfSend
  split
  · split <;> rfl
  · split <;> rfl

/-- 45_dispatcher_interface R255: no response payload is longer than 12 bytes. -/
theorem dispatchReply_length_le (op : Byte) (d : Dispatcher) (p : List Byte) (c : Bool) :
    (dispatchReply op d p c).payload.length ≤ maxResponse := by
  unfold dispatchReply
  split
  · exact (answerGet_length_le _ d p c).trans (by simp [maxResponse])
  · exact (answerGet_length_le _ d p c).trans (by simp [deviceTypeBytes])
  · exact (answerGet_length_le _ d p c).trans (by simp [deviceRevisionBytes])
  · exact (answerGet_length_le _ d p c).trans (by simp [packOds, be16, maxResponse])
  · rw [replySetOds_payload]; exact Nat.zero_le _
  · exact (answerGet_length_le _ d p c).trans (by simp [packPa, be32, be16, maxResponse])
  · rw [replySetPa_payload]; exact Nat.zero_le _
  · exact (answerGet_length_le _ d p c).trans (by simp [be32, maxResponse])
  · rw [replySetFreq_payload]; exact Nat.zero_le _
  · exact (answerGet_length_le _ d p c).trans (by simp [maxResponse])
  · rw [replySetFdev_payload]; exact Nat.zero_le _
  · exact (answerGet_length_le _ d p c).trans (by simp [maxResponse])
  · rw [replySetEnc_payload]; exact Nat.zero_le _
  · exact Nat.zero_le _
  · rw [replyAppendFrame_payload]; exact Nat.zero_le _
  · rw [replyRfSend_payload]; exact Nat.zero_le _
  · exact Nat.zero_le _

/-! ### The stages of a call -/

/-- `RXBUF` holds the frame `x`, `y`, then the payload `p` (30_encoding R96). -/
def Block.holds (b : Block) (x y : Byte) (p : List Byte) : Prop :=
  b.decLen = 2 + p.length ∧ Memory.read b.rxbuf 0 = some x ∧ Memory.read b.rxbuf 1 = some y ∧ b.payload = some p

/-- A decode that began empty leaves its frame in `RXBUF`. -/
theorem decodeEnded_holds {b : Block} (hb : b.listening) (x y : Byte) (p : List Byte) :
    (b.decodeEnded (x :: y :: p)).holds x y p := by
  obtain ⟨-, -, -, hlen⟩ := hb
  have len : (b.decodeEnded (x :: y :: p)).decLen = 2 + p.length := by
    simp only [Block.decodeEnded, hlen, List.length_cons]
    omega
  have buf : (b.decodeEnded (x :: y :: p)).rxbuf = Memory.writeList b.rxbuf 0 (x :: y :: p) := by
    simp only [Block.decodeEnded, hlen]
  refine ⟨len, ?_, ?_, ?_⟩
  · rw [buf]
    exact read_writeList_first _ 0 x _
  · rw [buf]
    exact read_writeList_first _ 1 y p
  · rw [Block.payload, len, buf, Nat.add_sub_cancel_left]
    exact readRange_writeList p _ 2

/-- HOST.CALL with an id that is not the sentinel and a payload that fits (42_host_correlator R181). -/
theorem exec_hostCall {s : State} {id op : Byte} {n : Nat} (hidle : s.host.trState = .hIdle) (hid : id ≠ Config.esc)
    (hcap : n ≤ s.params.capTxPay) :
    exec (.hostCall id op n) s = .next (s.setBlock .host (s.host.beginCall id op n)) :=
  (if_neg (not_not.2 hidle)).trans ((if_neg hid).trans (if_neg (Nat.not_lt.2 hcap)))

/-- A call with a written payload that fits is sent whole, and the HOST waits for the response (42_host_correlator R181,
R183, R185). -/
theorem run_call {s : State} {id op : Byte} {p w : List Byte} {rest : List Move}
    (hw : w = encodeFrame (id :: op :: p)) (hidle : s.host.trState = .hIdle) (hid : id ≠ Config.esc)
    (hcap : p.length ≤ s.params.capTxPay) (hp : Memory.readRange s.host.txpay 0 p.length = some p)
    (hroom : s.hd.length + w.length ≤ s.params.chDepth)
    (hs : s.script =
      .host { start := some (id, op, p.length) } :: (List.replicate w.length (acceptCycle .host) ++ rest)) :
    ∃ b, runSteps (1 + w.length) s =
        .next { s with host := b, hd := s.hd ++ w, script := rest, turn := .host } ∧
      b.trState = .hRecv ∧ b.listening ∧ b.curId = id := by
  have sel (m : List Move) : hostSelect { start := some (id, op, p.length) } (s.inCycle .host m) =
      some (.hostCall id op p.length) := by
    simp [hostSelect, hidle]
  have start := step_host_of_select hs rfl rfl rfl (sel _)
  rw [andThen_hostAfter (by simp), exec_hostCall (by exact hidle) hid (by exact hcap)] at start
  have sends : (s.host.beginCall id op p.length).Sends w _ :=
    hw ▸ sends_encodeFrame rfl rfl (frameFrom_of_readRange (b := s.host.beginCall id op p.length) rfl hp)
  refine ⟨(s.host.beginCall id op p.length).encodeEnded.turnToReceive .host, ?_, rfl,
    turnToReceive_listening _ .host, rfl⟩
  rw [Nat.add_comm, runSteps_of_step _ start]
  exact run_sends (r := .host) sends rfl rfl rfl rfl hroom rfl

/-- A frame of two bytes or more that ends well waits for the dispatcher (43_device_responder R214). -/
theorem afterDecode_frame (s : State) {b : Block} {id op : Byte} {p : List Byte} (htr : b.trState = .dRecv)
    (hrun : b.decRun = false) (hres : b.decRes = .frameOk) (hf : b.holds id op p) :
    afterDecode (s.setBlock .device b) = .next (s.setBlock .device { b with curId := id, trState := .dDispatch }) := by
  obtain ⟨hlen, hid, -, -⟩ := hf
  have two : 2 ≤ b.decLen := by omega
  simp only [afterDecode, dispatchOp, setBlock_device_device, htr, hrun, hres, hid, two, Nat.not_lt.2 two, and_self,
    if_true, if_false]
  rfl

/-- A command that arrives undisturbed waits at the dispatcher port (43_device_responder R211, R214). -/
theorem run_command {s : State} {id op : Byte} {p w q : List Byte} {rest : List Move}
    (hw : w = encodeFrame (id :: op :: p)) (htr : s.device.trState = .dRecv) (hl : s.device.listening)
    (hlen : p.length ≤ 254) (hq : s.hd = w ++ q)
    (hs : s.script = List.replicate w.length (offerCycle .device) ++ rest) :
    ∃ b, runSteps w.length s =
        .next { s with device := b, hd := q, script := rest, turn := .device } ∧
      b.trState = .dDispatch ∧ b.curId = id ∧ b.holds id op p := by
  have frame := decodeEnded_holds hl id op p
  obtain ⟨hrun, hesc, herr, h0⟩ := hl
  have takes : s.device.Takes w (s.device.decodeEnded (id :: op :: p)) :=
    hw ▸ takes_encodeFrame hrun hesc herr (by simp only [h0, List.length_cons, Config.capRx]; omega)
  refine ⟨{ s.device.decodeEnded (id :: op :: p) with curId := id, trState := .dDispatch }, ?_, rfl, rfl, frame⟩
  rw [run_takes (r := .device) takes rfl hrun rfl htr hq hs]
  exact afterDecode_frame _ (b := s.device.decodeEnded _) htr rfl rfl frame

/-- A frame of two bytes or more with the id of the call ends it with its status (42_host_correlator R189). -/
theorem validateOp_frame (s : State) {b : Block} {st : Byte} {p : List Byte} (htr : b.trState = .hRecv)
    (hrun : b.decRun = false) (hres : b.decRes = .frameOk) (hf : b.holds b.curId st p) :
    validateOp (s.setBlock .host b) =
      .next (s.setBlock .host (b.endCall (if st = 0x00 then .ok else .appStatus) st)) := by
  obtain ⟨hlen, hid, hst, -⟩ := hf
  have two : ¬ b.decLen < 2 := by omega
  simp only [validateOp, validateFrame, setBlock_host_host, htr, hrun, hres, hid, hst, two, and_self, if_true,
    if_false, ne_eq, not_true]
  split
  · next h0 => rw [h0]; rfl
  · rfl

/-- A response with the id of the call that arrives undisturbed ends it with its status and payload
(42_host_correlator R186, R189). -/
theorem run_response {s : State} {id st : Byte} {p w q : List Byte} {rest : List Move}
    (hw : w = encodeFrame (id :: st :: p)) (htr : s.host.trState = .hRecv) (hl : s.host.listening)
    (hid : s.host.curId = id) (hlen : p.length ≤ 254) (hq : s.dh = w ++ q)
    (hs : s.script = List.replicate w.length (offerCycle .host) ++ rest) :
    ∃ b, runSteps w.length s =
        .next { s with host := b, dh := q, script := rest, turn := .host } ∧
      b.trState = .hIdle ∧ b.done = true ∧ b.busy = false ∧
      b.result = (if st = 0x00 then .ok else .appStatus) ∧ b.respStatus = st ∧ b.payload = some p := by
  subst hid
  have frame := decodeEnded_holds hl s.host.curId st p
  have ⟨_, _, _, hpay⟩ := frame
  obtain ⟨hrun, hesc, herr, h0⟩ := hl
  have takes : s.host.Takes w (s.host.decodeEnded (s.host.curId :: st :: p)) :=
    hw ▸ takes_encodeFrame hrun hesc herr (by simp only [h0, List.length_cons, Config.capRx]; omega)
  refine ⟨(s.host.decodeEnded (s.host.curId :: st :: p)).endCall (if st = 0x00 then .ok else .appStatus) st, ?_,
    rfl, rfl, rfl, rfl, rfl, hpay⟩
  rw [run_takes (r := .host) takes rfl hrun rfl htr hq hs]
  exact validateOp_frame _ (b := s.host.decodeEnded _) htr rfl rfl frame

/-- The dispatcher serves the command that waits (45_dispatcher_interface R230). -/
theorem step_service {s : State} {id op : Byte} {p : List Byte} {rest : List Move} (hs : s.script = .dispatcher :: rest)
    (htr : s.device.trState = .dDispatch) (hans : s.disp.answer = none) (hf : s.device.holds id op p) :
    step s = .next (answered { s with script := rest }
      (dispatchReply op s.disp p (Config.freeChoice s.freeCtr))) := by
  obtain ⟨-, -, hop, hp⟩ := hf
  rw [step_of_script hs]
  have w : waiting { s with script := rest } p := ⟨htr, hans, hp⟩
  rw [← exec_decodeOpcode w op]
  simp [runMove, dispatcherMove, commandSelect, Block.dispReq, Block.cmdOpcode, htr, hans, hop, decode]

/-- The DEVICE's registers once it begins to send a response (43_device_responder R215). -/
def Block.beginResponse (b : Block) (st : Byte) (n : Nat) : Block :=
  { Block.encStart { b with hdr0 := b.curId, hdr1 := st, txPlen := n } with trState := .dSend }

/-- DEV.RESPOND with a payload that fits (43_device_responder R215). -/
theorem exec_devRespond {s : State} {st : Byte} {n : Nat} (htr : s.device.trState = .dDispatch) (hn : n ≤ 254) :
    exec (.devRespond st n) s = .next (s.setBlock .device (s.device.beginResponse st n)) :=
  (if_pos htr).trans (if_neg (Nat.not_lt.2 hn))

/-- The answer the dispatcher holds is sent whole, and the DEVICE receives again (43_device_responder R215, R216). -/
theorem run_answer {s : State} {id st : Byte} {p w : List Byte} {rest : List Move}
    (hw : w = encodeFrame (id :: st :: p)) (htr : s.device.trState = .dDispatch) (hid : s.device.curId = id)
    (hans : s.disp.answer = some (st, p.length)) (hlen : p.length ≤ 254)
    (hp : Memory.readRange s.device.txpay 0 p.length = some p) (hroom : s.dh.length + w.length ≤ s.params.chDepth)
    (hs : s.script = .device { ack := .own } :: (List.replicate w.length (acceptCycle .device) ++ rest)) :
    ∃ b, runSteps (1 + w.length) s =
        .next { s with device := b, dh := s.dh ++ w, disp := { s.disp with answer := none }, script := rest,
                       turn := .device } ∧
      b.trState = .dRecv := by
  subst hid
  have sel (m : List Move) : deviceSelect { ack := .own } (s.inCycle .device m) = some (.devRespond st p.length) := by
    simp [deviceSelect, ackPulse, htr, hans]
  have start := step_device_of_select hs rfl rfl rfl (sel _)
  rw [exec_devRespond (by exact htr) hlen] at start
  have sends : (s.device.beginResponse st p.length).Sends w _ :=
    hw ▸ sends_encodeFrame rfl rfl (frameFrom_of_readRange (b := s.device.beginResponse st p.length) rfl hp)
  refine ⟨(s.device.beginResponse st p.length).encodeEnded.turnToReceive .device, ?_, rfl⟩
  rw [Nat.add_comm, runSteps_of_step _ start]
  exact run_sends (r := .device) sends rfl rfl rfl rfl hroom rfl

/-! ### The two halves of a call -/

/-- The request: from an idle HOST over an empty channel to a command that waits at the dispatcher port. -/
theorem run_request {s : State} {id op : Byte} {p w : List Byte} {rest : List Move}
    (hw : w = encodeFrame (id :: op :: p)) (hidle : s.host.trState = .hIdle) (hrecv : s.device.trState = .dRecv)
    (hl : s.device.listening) (hhd : s.hd = []) (hid : id ≠ Config.esc) (hcap : p.length ≤ s.params.capTxPay)
    (hlen : p.length ≤ 254) (hp : Memory.readRange s.host.txpay 0 p.length = some p)
    (hroom : w.length ≤ s.params.chDepth)
    (hs : s.script = .host { start := some (id, op, p.length) } ::
      (List.replicate w.length (acceptCycle .host) ++ (List.replicate w.length (offerCycle .device) ++ rest))) :
    ∃ h d, runSteps (1 + w.length + w.length) s =
        .next { s with host := h, device := d, script := rest, turn := .device } ∧
      h.trState = .hRecv ∧ h.listening ∧ h.curId = id ∧
      d.trState = .dDispatch ∧ d.curId = id ∧ d.holds id op p := by
  obtain ⟨h, call, hh, hl', hcur⟩ := run_call hw hidle hid hcap hp (by simpa [hhd] using hroom) hs
  obtain ⟨d, command, dfacts⟩ :=
    run_command (q := s.hd) hw
      (s := { s with
        host := h, hd := s.hd ++ w, turn := .host
        script := List.replicate w.length (offerCycle .device) ++ rest })
      hrecv hl hlen (by simp [hhd]) rfl
  refine ⟨h, d, ?_, hh, hl', hcur, dfacts⟩
  rw [runSteps_add _ call, command]

/-- The reply: from a command that waits at the dispatcher port, over an empty channel, to the end of the call. -/
theorem run_reply {s : State} {id op : Byte} {p w : List Byte} {rest : List Move} {r : Reply}
    (hr : r = dispatchReply op s.disp p (Config.freeChoice s.freeCtr))
    (hw : w = encodeFrame (id :: r.status :: r.payload))
    (hrecv : s.host.trState = .hRecv) (hl : s.host.listening) (hid : s.host.curId = id)
    (hwait : s.device.trState = .dDispatch) (hid' : s.device.curId = id) (hf : s.device.holds id op p)
    (hans : s.disp.answer = none) (hdh : s.dh = []) (hroom : w.length ≤ s.params.chDepth)
    (hs : s.script = .dispatcher :: .device { ack := .own } ::
      (List.replicate w.length (acceptCycle .device) ++ (List.replicate w.length (offerCycle .host) ++ rest))) :
    ∃ h d, runSteps (1 + (1 + w.length + w.length)) s =
        .next { s with
          host := h, device := d, disp := { r.disp with answer := none }, radio := s.radio ++ r.job.toList
          freeCtr := s.freeCtr + 1, script := rest, turn := .host } ∧
      d.trState = .dRecv ∧ h.trState = .hIdle ∧ h.done = true ∧ h.busy = false ∧
      h.result = (if r.status = 0x00 then .ok else .appStatus) ∧ h.respStatus = r.status ∧
      h.payload = some r.payload := by
  have short : r.payload.length ≤ 254 :=
    (hr ▸ dispatchReply_length_le op s.disp p _ : r.payload.length ≤ maxResponse).trans (by decide)
  have service := step_service hs hwait hans hf
  rw [← hr] at service
  obtain ⟨d, answer, hd⟩ :=
    run_answer hw
      (s := answered { s with
        script := .device { ack := .own } ::
          (List.replicate w.length (acceptCycle .device) ++ (List.replicate w.length (offerCycle .host) ++ rest)) } r)
      hwait hid' rfl short (readRange_writeList _ _ 0) (by simpa [answered, hdh] using hroom) rfl
  obtain ⟨h, response, hfacts⟩ :=
    run_response hw (q := s.dh)
      (s := { answered s r with
        device := d, dh := s.dh ++ w, disp := { r.disp with answer := none }, turn := .device
        script := List.replicate w.length (offerCycle .host) ++ rest })
      hrecv hl hid short (by simp [hdh]) rfl
  refine ⟨h, d, ?_, hd, hfacts⟩
  rw [Nat.add_comm, runSteps_of_step _ service, runSteps_add _ answer]
  exact response

/-- Settles O60: the request and the reply, one after the other. -/
theorem callBringsBackTheDispatchersAnswer : Obligations.CallBringsBackTheDispatchersAnswer := by
  intro s id op p rest r w w' hr hw hw' hidle hrecv hrun hesc herr hlen hhd hdh hans hid hcap hp254 hp hroom hroom' hs
  obtain ⟨h1, d1, request, hh, hl, hcur, hd, hcur', hf⟩ :=
    run_request hw hidle hrecv ⟨hrun, hesc, herr, hlen⟩ hhd hid hcap hp254 hp hroom hs
  obtain ⟨h2, d2, reply, hd2, hh2, hdone, hbusy, hres, hst, hpay⟩ :=
    run_reply (s := { s with host := h1, device := d1, script := _, turn := .device }) hr hw' hh hl hcur hd hcur' hf
      hans hdh hroom' rfl
  have steps : 3 + 2 * w.length + 2 * w'.length = 1 + w.length + w.length + (1 + (1 + w'.length + w'.length)) := by
    omega
  have run := (runSteps_add _ request).trans reply
  rw [← steps] at run
  exact ⟨_, run, rfl, hhd, hdh, hdone, hbusy, hh2, hd2, hres, hst, hpay, rfl, rfl⟩

end Sys2Proof.Machine

/-! PROOF of O45, O47, O53, O54 and of O48, the reset half of the invariant (10_state): what one cycle or one answer
changes, and where the model stops. -/

namespace Sys2Proof.Machine

/-! ### Answers, reset, stops -/

/-- Settles O45: the payload is written from index 0 on, past it and elsewhere nothing is. -/
theorem answerStoresOnlyItsPayload : Obligations.AnswerStoresOnlyItsPayload := by
  intro s r
  exact ⟨readRange_writeList r.payload _ 0, fun a ha => read_writeList_above r.payload _ (by omega), fun _ => rfl,
    rfl, rfl, rfl⟩

theorem hostCycle_reset {i : HostIn} (h : i.rst = true) (s : State) : hostCycle i s = .next (resetHost s) := by
  rw [hostCycle, if_pos h]

theorem deviceCycle_reset {i : DevIn} (h : i.rst = true) (s : State) : deviceCycle i s = .next (resetDevice s) := by
  rw [deviceCycle, if_pos h]

/-- Settles O47: reset comes before everything else in its cycle, and withdraws a held answer. -/
theorem resetGivesTheResetValues : Obligations.ResetGivesTheResetValues := by
  refine ⟨fun i s h => hostCycle_reset h s, fun i s h => ⟨_, deviceCycle_reset h s, rfl⟩, fun b chFail => ?_, rfl,
    rfl, rfl⟩
  simp [Block.txValid, Block.rxReady]

theorem blockReset_blockOk (cap : Nat) (r : Role) : blockOk cap (Block.reset r) :=
  ⟨⟨.nil, fun _ h => nomatch h⟩, ⟨.nil, fun _ h => nomatch h⟩, Nat.zero_le _, fun _ h => absurd h (Nat.not_lt_zero _),
    Nat.zero_le _, Nat.le_refl _, Nat.zero_le _, fun h => Bool.noConfusion h, fun h => EncPhase.noConfusion h,
    fun h => EncPhase.noConfusion h⟩

theorem blockReset_hostOk (p : Params) : hostOk p (Block.reset .host) := by
  simp [hostOk, Block.reset, Config.esc]

theorem blockReset_deviceOk : deviceOk (Block.reset .device) := by
  simp [deviceOk, Block.reset]

/-- Whatever the open start values are, the resident state starts legal (45_dispatcher_interface R232, R252). -/
theorem dispatcherStart_ok : dispatcherOk Dispatcher.start := by
  refine ⟨?_, ?_, rfl, rfl, fun _ _ h => nomatch h⟩
  · simp only [Dispatcher.start, BitVec.toNat_ofNat, encodingMax]
    omega
  · simp [Dispatcher.start]

/-- Nothing is sent after reset. -/
theorem blockReset_sendReady (r : Role) : sendReady (Block.reset r) := fun h => Bool.noConfusion h

/-- Settles O48. -/
theorem invariantsHoldAtReset : Obligations.InvariantsHoldAtReset := by
  have inv : Inv State.reset :=
    ⟨blockReset_blockOk _ .host, blockReset_hostOk _, blockReset_blockOk _ .device, blockReset_deviceOk,
      dispatcherStart_ok⟩
  exact ⟨inv, inv, blockReset_sendReady .host, blockReset_sendReady .device, fun _ _ h => nomatch h⟩

/-- A read that makes a fault stops a HOST cycle without reset. -/
theorem hostCycle_readFault {i : HostIn} {s : State} {f : Fault} (hrst : i.rst = false)
    (h : s.host.readFault i.rd = some f) : hostCycle i s = .fault f := by
  simp [hostCycle, hrst, h]

/-- The encoder stops at a frame byte without a value (10_state R45). -/
theorem encoderOp_unwritten {r : Role} {s : State} (hph : (s.block r).encPh = .data)
    (hi : (s.block r).encIdx ≠ (s.block r).encN) (hf : (s.block r).frameByte (s.block r).encIdx = none) :
    encoderOp r s = .fault .unspecifiedByte := by
  simp [encoderOp, Block.encoderFetch, hph, hi, hf]

/-- Settles O54: the tests of each operation in their order. -/
theorem whereTheModelStops : Obligations.WhereTheModelStops := by
  refine fun s => ⟨fun hidle op plen => ?_, fun hidle id op plen hid hcap => ?_, fun hwait st n hn => ?_,
    fun a ha hnone => ?_, fun a ha => ?_, fun hsend hrun hph hi hf => ?_⟩
  · exact (if_neg (not_not.2 hidle)).trans (if_pos rfl)
  · exact (if_neg (not_not.2 hidle)).trans ((if_neg hid).trans (if_pos hcap))
  · exact (if_pos hwait).trans (if_pos hn)
  · refine hostCycle_readFault rfl ?_
    simp [Block.readFault, Config.capRx, Nat.not_le.2 ha, hnone]
  · refine hostCycle_readFault rfl ?_
    simp [Block.readFault, Config.capRx, ha]
  · exact (if_pos ⟨hsend, hrun⟩).trans (encoderOp_unwritten (r := .host) hph (Nat.ne_of_lt hi) hf)

/-! ### Port writes -/

/-- A write through an open port below the capacity is taken (20_memory R73). -/
theorem portWrite_taken (b : Block) {open_ : Bool} {cap a : Nat} (v : Byte) (hopen : open_ = true) (ha : a < cap) :
    b.portWrite open_ cap (some (a, v)) = { b with txpay := Memory.write b.txpay a v } :=
  if_pos ⟨hopen, ha⟩

/-- A write through a closed port, or past the capacity, changes nothing (20_memory R73). -/
theorem portWrite_ignored (b : Block) {open_ : Bool} {cap a : Nat} (v : Byte) (h : open_ = false ∨ cap ≤ a) :
    b.portWrite open_ cap (some (a, v)) = b := by
  refine if_neg fun ⟨hopen, ha⟩ => ?_
  rcases h with h | h
  · rw [h] at hopen; cases hopen
  · omega

theorem clientWrite_taken {i : HostIn} {s : State} {a : Nat} {v : Byte} (hpw : i.pw = some (a, v))
    (hbusy : s.host.busy = false) (ha : a < s.params.capTxPay) :
    clientWrite i s = { s with host := { s.host with txpay := Memory.write s.host.txpay a v } } := by
  rw [clientWrite, hpw, portWrite_taken _ v (by simp [hbusy]) ha]

theorem clientWrite_ignored {i : HostIn} {s : State} {a : Nat} {v : Byte} (hpw : i.pw = some (a, v))
    (h : s.host.busy = true ∨ s.params.capTxPay ≤ a) : clientWrite i s = s := by
  rw [clientWrite, hpw, portWrite_ignored _ v (h.imp_left fun hbusy => by simp [hbusy])]

theorem dispatcherWrite_taken {i : DevIn} {s : State} {a : Nat} {v : Byte} (hpw : i.pw = some (a, v))
    (htr : s.device.trState = .dDispatch) (ha : a < Config.devCapTx) :
    dispatcherWrite i s = { s with device := { s.device with txpay := Memory.write s.device.txpay a v } } := by
  rw [dispatcherWrite, hpw, portWrite_taken _ v (by simp [Block.dispReq, htr]) ha]

theorem dispatcherWrite_ignored {i : DevIn} {s : State} {a : Nat} {v : Byte} (hpw : i.pw = some (a, v))
    (h : s.device.trState ≠ .dDispatch ∨ Config.devCapTx ≤ a) : dispatcherWrite i s = s := by
  rw [dispatcherWrite, hpw, portWrite_ignored _ v (h.imp_left fun htr => by simp [Block.dispReq, htr])]

/-- A HOST cycle in which nothing comes in changes nothing. -/
theorem hostCycle_quiet (s : State) : hostCycle {} s = .next s := by
  have sel : hostSelect {} s = none := by
    unfold hostSelect
    split <;> simp [delivered]
  simp [hostCycle, Block.readFault, sel, clientWrite, Block.portWrite, hostTick]

/-- A DEVICE cycle in which nothing comes in changes nothing. -/
theorem deviceCycle_quiet (s : State) : deviceCycle {} s = .next s := by
  have sel : deviceSelect {} s = none := by
    unfold deviceSelect
    split <;> simp [delivered, ackPulse]
  simp [deviceCycle, Block.readFault, sel, dispatcherWrite, Block.portWrite]

/-- Settles O53: a cycle is its port write, then the cycle without one. -/
theorem portWritesAreGuarded : Obligations.PortWritesAreGuarded := by
  intro s a v
  refine ⟨fun i hpw => ⟨fun hbusy ha => ?_, fun h => ?_⟩, fun i hpw => ⟨fun htr ha => ?_, fun h => ?_⟩,
    fun hbusy ha => ?_, fun h => ?_, fun htr ha => ?_, fun h => ?_⟩
  · rw [hostCycle_portWrite, clientWrite_taken hpw hbusy ha]
  · rw [hostCycle_portWrite, clientWrite_ignored hpw h]
  · rw [deviceCycle_portWrite, dispatcherWrite_taken hpw htr ha]
  · rw [deviceCycle_portWrite, dispatcherWrite_ignored hpw h]
  · rw [hostCycle_portWrite, clientWrite_taken rfl hbusy ha, hostCycle_quiet]
  · rw [hostCycle_portWrite, clientWrite_ignored rfl h, hostCycle_quiet]
  · rw [deviceCycle_portWrite, dispatcherWrite_taken rfl htr ha, deviceCycle_quiet]
  · rw [deviceCycle_portWrite, dispatcherWrite_ignored rfl h, deviceCycle_quiet]

end Sys2Proof.Machine

/-! PROOF of O49 (10_state R46). What a cycle can do to the registers of its block is said once, as a relation of one
constructor for each event of 42_host_correlator R180 and 43_device_responder R210 (`Block.HostEvent`,
`Block.DeviceEvent`); that every cycle is such an event and that every event keeps the invariant are then separate. -/

namespace Sys2Proof.Machine

/-! ### One byte, as a law of registers -/

/-- A system whose HOST has these registers and this capacity: read at it, a law of an operation is one of registers. -/
def State.around (cap : Nat) (b : Block) : State :=
  { State.reset with params := { Config.defaultParams with capTxPay := cap }, host := b }

theorem sendOnce_blockOk {cap : Nat} {b b' : Block} {v : Byte} (hb : blockOk cap b) (hrun : b.encRun = true)
    (h : b.sendOnce = some (v, b')) : blockOk cap b' := by
  have ⟨_, _, _, _, _, hle, _⟩ := hb
  have op : encoderOp .host (State.around cap b) = _ := encoderOp_of_sendOnce hrun hle h
  simpa [State.around] using encoderOp_blockOk op hb

theorem recvOnce_blockOk {cap : Nat} {b : Block} (v : Byte) (hb : blockOk cap b) (hrun : b.decRun = true) :
    blockOk cap (b.recvOnce v) := by
  have op : decoderOp .host v (State.around cap b) = _ := decoderOp_of_decRun v hrun
  simpa [State.around] using decoderOp_blockOk op hb

theorem turnToReceive_blockOk {cap : Nat} {b : Block} (r : Role) (hb : blockOk cap b) :
    blockOk cap (b.turnToReceive r) :=
  (decStart_blockOk hb : blockOk cap b.decStart)

theorem countTick_blockOk {cap : Nat} {b : Block} (n : Nat) (hb : blockOk cap b) : blockOk cap (b.countTick n) := by
  simpa [blockOk] using hb

theorem countTick_idleCnt_le {b : Block} {n : Nat} (h : b.idleCnt ≤ n) : (b.countTick n).idleCnt ≤ n := by
  unfold Block.countTick
  split
  · next hlt => exact hlt
  · exact h

theorem sendOnce_stuff2 {b : Block} (hph : b.encPh = .stuff2) :
    b.sendOnce = some (Config.esc, { b with encIdx := b.encIdx + 1, encPh := .data }) := by
  simp only [Block.sendOnce, hph]
  rfl

theorem sendOnce_term2 {b : Block} (hph : b.encPh = .term2) :
    b.sendOnce = some (Config.endMark, { b with encPh := .done, encRun := false }) := by
  simp only [Block.sendOnce, hph]
  rfl

/-- An encoder operation that answers is the row that `Block.sendOnce` writes out (40_encoder R138). -/
theorem encoderOp_sendOnce {r : Role} {s t : State} (h : encoderOp r s = .next t) :
    ∃ v b, (s.block r).sendOnce = some (v, b) ∧ t = (s.setBlock r b).emit r v := by
  rcases encoderOp_next h with ⟨v, h⟩ | h | h | h | h
  · obtain ⟨-, hph, hi, hv, hesc, rfl⟩ := encLitOn_next h
    exact ⟨_, _, sendOnce_literal hph (Nat.ne_of_lt hi) hv hesc, rfl⟩
  · obtain ⟨-, hph, hi, hv, rfl⟩ := encStuff1On_next h
    exact ⟨_, _, sendOnce_esc hph (Nat.ne_of_lt hi) hv, rfl⟩
  · obtain ⟨-, hph, rfl⟩ := encStuff2On_next h
    exact ⟨_, _, sendOnce_stuff2 hph, rfl⟩
  · obtain ⟨-, hph, hi, rfl⟩ := encTerm1On_next h
    exact ⟨_, _, sendOnce_last hph hi, rfl⟩
  · obtain ⟨-, hph, rfl⟩ := encTerm2On_next h
    exact ⟨_, _, sendOnce_term2 hph, rfl⟩

/-- A delivered byte changes the decoder's registers alone, restarts the timer, and ends the decode only with a result
of 41_decoder R156. -/
theorem recvOnce_writes (b : Block) (v : Byte) :
    ∃ esc err len buf run res,
      b.recvOnce v =
        { b with decEsc := esc, decErr := err, decLen := len, rxbuf := buf, decRun := run, decRes := res,
                 idleCnt := 0 } ∧
      (run = b.decRun ∧ res = b.decRes ∨ run = false ∧ res = resAtEnd b.decErr) := by
  by_cases he : b.decEsc = true
  · by_cases hend : v = Config.endMark
    · rw [hend, recvOnce_end he]
      exact ⟨_, _, _, _, _, _, rfl, .inr ⟨rfl, rfl⟩⟩
    · by_cases hesc : v = Config.esc
      · rw [hesc, recvOnce_litesc he]
        rcases append_cases b Config.esc with ⟨-, e⟩ | ⟨-, -, e⟩ | ⟨-, -, e⟩
        all_goals rw [e]; exact ⟨_, _, _, _, _, _, rfl, .inl ⟨rfl, rfl⟩⟩
      · rw [recvOnce_badesc he hend hesc]
        exact ⟨_, _, _, _, _, _, rfl, .inl ⟨rfl, rfl⟩⟩
  · have he : b.decEsc = false := by simpa using he
    by_cases hesc : v = Config.esc
    · rw [hesc, recvOnce_esc he]
      exact ⟨_, _, _, _, _, _, rfl, .inl ⟨rfl, rfl⟩⟩
    · rw [recvOnce_data he hesc]
      rcases append_cases b v with ⟨-, e⟩ | ⟨-, -, e⟩ | ⟨-, -, e⟩
      all_goals rw [e]; exact ⟨_, _, _, _, _, _, rfl, .inl ⟨rfl, rfl⟩⟩

/-- A terminator ends the decode with FRAME_OK or FRAMING_ERROR (41_decoder R156). -/
theorem resAtEnd_cases (err : Bool) : resAtEnd err = .frameOk ∨ resAtEnd err = .framingError := by
  cases err
  · exact .inl rfl
  · exact .inr rfl

/-- The end of data ends it with TIMEOUT or FRAMING_ERROR (41_decoder R159). -/
theorem resAtEod_cases (err : Bool) : resAtEod err = .timeout ∨ resAtEod err = .framingError := by
  cases err
  · exact .inl rfl
  · exact .inr rfl

/-- An accepted byte moves nothing but the block's own stream. -/
theorem emit_host_eq (s : State) (v : Byte) : ∃ q, s.emit .host v = { s with hd := q } := by
  unfold State.emit
  split
  · exact ⟨_, rfl⟩
  · exact ⟨_, rfl⟩

theorem emit_device_eq (s : State) (v : Byte) : ∃ q, s.emit .device v = { s with dh := q } := by
  unfold State.emit
  split
  · exact ⟨_, rfl⟩
  · exact ⟨_, rfl⟩

/-! ### The events of a HOST cycle -/

/-- A call ends with a result: raised, or from the frame's status byte (42_host_correlator R189, 60_exceptions R283). -/
inductive Block.CallEnds (b : Block) : Block → Prop
  | raised {k : CallResult} (hk : k ≠ .noResult) : Block.CallEnds b (b.raise k)
  | status {k : CallResult} {st : Byte} (hk : k ≠ .noResult) (hst : k ≠ .appStatus → st = 0x00) :
      Block.CallEnds b (b.endCall k st)

/-- The registers after the tick that expires the timer and DEC.EOD (60_exceptions R292, 41_decoder R159). -/
def Block.expire (b : Block) (nIdle : Nat) : Block :=
  { b.countTick nIdle with decRun := false, decRes := resAtEod b.decErr }

/-- What a HOST cycle without reset and port write does to the registers, by the operation it selects
(42_host_correlator R180). -/
inductive Block.HostEvent (p : Params) (i : HostIn) (b : Block) : Block → Prop
  | idle : Block.HostEvent p i b b
  | tick (htr : b.trState = .hRecv) : Block.HostEvent p i b (b.countTick p.nIdle)
  | call {id op : Byte} {n : Nat} (htr : b.trState = .hIdle) (hstart : i.start = some (id, op, n))
      (hid : id ≠ Config.esc) (hn : n ≤ p.capTxPay) : Block.HostEvent p i b (b.beginCall id op n)
  | fail (htr : b.trState = .hSend ∨ b.trState = .hRecv) : Block.HostEvent p i b (b.raise .channelError)
  | send {v : Byte} {c : Block} (htr : b.trState = .hSend) (hrun : b.encRun = true)
      (once : b.sendOnce = some (v, c)) (hgo : c.encRun = true) : Block.HostEvent p i b c
  | sent {v : Byte} {c : Block} (htr : b.trState = .hSend) (hrun : b.encRun = true)
      (once : b.sendOnce = some (v, c)) (hstop : c.encRun = false) : Block.HostEvent p i b (c.turnToReceive .host)
  | recv (v : Byte) (htr : b.trState = .hRecv) (hrun : b.decRun = true) (hgo : (b.recvOnce v).decRun = true) :
      Block.HostEvent p i b (b.recvOnce v)
  | judged (v : Byte) {c : Block} (htr : b.trState = .hRecv) (hrun : b.decRun = true)
      (hstop : (b.recvOnce v).decRun = false) (ends : (b.recvOnce v).CallEnds c) : Block.HostEvent p i b c
  | expired {c : Block} (htr : b.trState = .hRecv) (hrun : b.decRun = true) (hidle : b.idleCnt + 1 = p.nIdle)
      (ends : (b.expire p.nIdle).CallEnds c) : Block.HostEvent p i b c

/-- HOST.VALIDATE, when it answers, ends the call (42_host_correlator R189). -/
theorem validateOp_callEnds {s t : State} (h : validateOp s = .next t) :
    ∃ c, t = { s with host := c } ∧ s.host.CallEnds c := by
  obtain ⟨-, -, ⟨-, rfl⟩ | ⟨-, rfl⟩ | ⟨-, h⟩⟩ := validateOp_next h
  · exact ⟨_, rfl, .raised (by decide)⟩
  · exact ⟨_, rfl, .raised (by decide)⟩
  · rcases validateFrame_next h with ⟨-, rfl⟩ | ⟨-, id, -, ⟨-, rfl⟩ | ⟨-, -, rfl⟩ | ⟨-, st, -, -, rfl⟩⟩
    · exact ⟨_, rfl, .raised (by decide)⟩
    · exact ⟨_, rfl, .raised (by decide)⟩
    · exact ⟨_, rfl, .status (by decide) fun _ => rfl⟩
    · exact ⟨_, rfl, .status (by decide) fun hk => absurd rfl hk⟩

theorem execHostCall_next {s t : State} {id op : Byte} {n : Nat} (htr : s.host.trState = .hIdle)
    (h : exec (.hostCall id op n) s = .next t) :
    id ≠ Config.esc ∧ n ≤ s.params.capTxPay ∧ t = { s with host := s.host.beginCall id op n } := by
  change execHostCall id op n s = .next t at h
  unfold execHostCall at h
  rw [if_neg (not_not.2 htr)] at h
  split at h
  · cases h
  · next hid =>
    split at h
    · cases h
    · next hn => cases h; exact ⟨hid, Nat.not_lt.1 hn, rfl⟩

theorem execHostSend_next {s t : State} (h : exec .hostSend s = .next t) :
    s.host.trState = .hSend ∧ s.host.encRun = true ∧ encoderOp .host s = .next t := by
  change execHostSend s = .next t at h
  unfold execHostSend at h
  split at h
  · next c => exact ⟨c.1, c.2, h⟩
  · cases h

theorem execHostChfailSend_next {s t : State} (h : exec .hostChfailSend s = .next t) :
    t = { s with host := s.host.raise .channelError } := by
  change execHostChfailSend s = .next t at h
  unfold execHostChfailSend at h
  split at h
  · cases h; rfl
  · cases h

theorem execHostChfailRecv_next {s t : State} (h : exec .hostChfailRecv s = .next t) :
    t = { s with host := s.host.raise .channelError } := by
  change execHostChfailRecv s = .next t at h
  unfold execHostChfailRecv at h
  split at h
  · cases h; rfl
  · cases h

/-- HOST.RECV as the whole outcome: the byte, and the judgement if it ended the decode (42_host_correlator R186). -/
theorem execHostRecv_eq {s : State} (v : Byte) (htr : s.host.trState = .hRecv) (hrun : s.host.decRun = true) :
    exec (.hostRecv v) s =
      if (s.host.recvOnce v).decRun = false then validateOp (s.setBlock .host (s.host.recvOnce v))
      else .next (s.setBlock .host (s.host.recvOnce v)) := by
  have recv : exec (.hostRecv v) s = _ := if_pos ⟨htr, hrun⟩
  rw [recv, decoderOp_of_decRun (r := .host) v hrun, andThen_of_next]
  rfl

/-- HOST.TIMEOUT as the whole outcome, the tick that expires the timer before it (42_host_correlator R187,
60_exceptions R292). -/
theorem execHostTimeout_eq {s : State} (htr : s.host.trState = .hRecv) (hrun : s.host.decRun = true)
    (hidle : s.host.idleCnt + 1 = s.params.nIdle) :
    exec .hostTimeout (hostBefore .hostTimeout s) = validateOp { s with host := s.host.expire s.params.nIdle } := by
  have tick : s.host.countTick s.params.nIdle = { s.host with idleCnt := s.host.idleCnt + 1 } := if_pos (by omega)
  have timeout : exec .hostTimeout (hostBefore .hostTimeout s) =
      andThen (decEodOn .host (hostBefore .hostTimeout s)) validateOp := if_pos (by simpa [hostBefore] using htr)
  rw [timeout, decEodOn, if_pos (by simp [hostBefore, tick, hrun, hidle])]
  simp [hostBefore, Block.expire, State.setBlock]

/-- HOST.SEND and what follows it in its cycle, when they answer, are a send event (42_host_correlator R183, R185). -/
theorem hostSend_event {p : Params} {i : HostIn} {s u t : State} (h : exec .hostSend s = .next u)
    (after : hostAfter .hostSend u = .next t) :
    ∃ c hd, t = { s with host := c, hd := hd } ∧ s.host.HostEvent p i c := by
  obtain ⟨htr, hrun, enc⟩ := execHostSend_next h
  obtain ⟨v, b, once, rfl⟩ := encoderOp_sendOnce enc
  have htr' : b.trState = .hSend := (sendOnce_trState once).trans htr
  have whole := hostSend_of_encoderOp htr hrun enc (by simpa using htr') (by simpa using sendOnce_done once hrun)
  rw [h, andThen_of_next, after] at whole
  cases whole
  obtain ⟨q, hq⟩ := emit_host_eq (s.setBlock .host b) v
  by_cases hgo : b.encRun = true
  · rw [afterAccept_running (by simpa using hgo), hq]
    exact ⟨_, _, rfl, .send htr hrun once hgo⟩
  · have hstop : b.encRun = false := by simpa using hgo
    rw [afterAccept_stopped (by simpa using hstop), hq]
    exact ⟨_, _, rfl, .sent htr hrun once hstop⟩

/-- HOST.RECV, when it answers, is a receive event, or the end of the call (42_host_correlator R186). -/
theorem hostRecv_event {p : Params} {i : HostIn} {s t : State} {v : Byte} (htr : s.host.trState = .hRecv)
    (hrun : s.host.decRun = true) (h : exec (.hostRecv v) s = .next t) :
    ∃ c, t = { s with host := c } ∧ s.host.HostEvent p i c := by
  rw [execHostRecv_eq v htr hrun] at h
  split at h
  · next hstop =>
    obtain ⟨c, rfl, ends⟩ := validateOp_callEnds h
    exact ⟨c, rfl, .judged v htr hrun hstop ends⟩
  · next hgo =>
    cases h
    exact ⟨_, rfl, .recv v htr hrun (by simpa using hgo)⟩

/-- A delivered byte means a running decode (10_state R41). -/
theorem decRun_of_delivered {s : State} {r : Role} {rxValid chFail rst : Bool} {v : Byte}
    (h : delivered s r rxValid chFail rst = some v) : (s.block r).decRun = true := by
  unfold delivered at h
  split at h
  · next c => have := c.2; simp [Block.rxReady] at this; exact this.1.1
  · cases h

/-- Every HOST cycle that answers is an event of its registers, and beyond them moves only the streams. -/
theorem hostCycle_event {i : HostIn} {s t : State} (hrst : i.rst = false) (hpw : i.pw = none)
    (h : hostCycle i s = .next t) :
    ∃ c hd dh, t = { s with host := c, hd := hd, dh := dh } ∧ s.host.HostEvent s.params i c := by
  rcases hostCycle_next h with ⟨hr, -⟩ | ⟨-, -, ⟨-, rfl⟩ | ⟨op, u, sel, hop, after⟩⟩
  · rw [hrst] at hr; cases hr
  · rw [clientWrite_none hpw, hostTick]
    split
    · next c =>
      obtain ⟨-, htr, -⟩ := c
      exact ⟨_, _, _, rfl, .tick htr⟩
    · exact ⟨_, _, _, rfl, .idle⟩
  · rw [clientWrite_none hpw] at hop
    rcases hostSelect_some sel with ⟨htr, id, o, n, hstart, rfl⟩ | ⟨htr, -, rfl⟩ | ⟨-, -, -, rfl⟩ | ⟨htr, -, rfl⟩ |
      ⟨htr, -, v, hv, rfl⟩ | ⟨htr, -, -, -, hrun, hidle, rfl⟩
    · obtain ⟨hid, hn, rfl⟩ := execHostCall_next htr hop
      cases hostAfter_next after (by simp)
      exact ⟨_, _, _, rfl, .call htr hstart hid hn⟩
    · cases execHostChfailSend_next hop
      cases hostAfter_next after (by simp)
      exact ⟨_, _, _, rfl, .fail (.inl htr)⟩
    · obtain ⟨c, hd, rfl, e⟩ := hostSend_event hop after
      exact ⟨c, hd, _, rfl, e⟩
    · cases execHostChfailRecv_next hop
      cases hostAfter_next after (by simp)
      exact ⟨_, _, _, rfl, .fail (.inr htr)⟩
    · obtain ⟨c, rfl, e⟩ := hostRecv_event (s := s.takeFront .host) htr (decRun_of_delivered hv) hop
      cases hostAfter_next after (by simp)
      exact ⟨c, _, _, rfl, e⟩
    · rw [execHostTimeout_eq htr hrun hidle] at hop
      obtain ⟨c, rfl, ends⟩ := validateOp_callEnds hop
      cases hostAfter_next after (by simp)
      exact ⟨c, _, _, rfl, .expired htr hrun hidle ends⟩

/-! ### A HOST cycle keeps the invariant -/

theorem hostOk_idle {p : Params} {b : Block} (h : hostOk p b) (htr : b.trState = .hIdle) :
    b.encRun = false ∧ b.decRun = false := by
  obtain ⟨⟨-, henc, hdec, -⟩ | ⟨htr', -⟩ | ⟨htr', -⟩, -⟩ := h
  · exact ⟨henc, hdec⟩
  · rw [htr] at htr'; cases htr'
  · rw [htr] at htr'; cases htr'

theorem hostOk_sending {p : Params} {b : Block} (h : hostOk p b) (htr : b.trState = .hSend) :
    b.encRun = true ∧ b.decRun = false ∧ b.busy = true ∧ b.done = false := by
  obtain ⟨⟨htr', -⟩ | ⟨-, h⟩ | ⟨htr', -⟩, -⟩ := h
  · rw [htr] at htr'; cases htr'
  · exact h
  · rw [htr] at htr'; cases htr'

theorem hostOk_receiving {p : Params} {b : Block} (h : hostOk p b) (htr : b.trState = .hRecv) :
    b.encRun = false ∧ b.decRun = true ∧ b.busy = true ∧ b.done = false := by
  obtain ⟨⟨htr', -⟩ | ⟨htr', -⟩ | ⟨-, h⟩, -⟩ := h
  · rw [htr] at htr'; cases htr'
  · rw [htr] at htr'; cases htr'
  · exact h

theorem raise_hostOk {p : Params} {b : Block} {k : CallResult} (hk : k ≠ .noResult) (hidle : b.idleCnt ≤ p.nIdle)
    (hid : b.curId ≠ Config.esc) : hostOk p (b.raise k) :=
  ⟨.inl ⟨rfl, rfl, rfl, rfl⟩, ⟨fun _ => hk, fun _ => rfl⟩, fun _ => rfl, hidle, hid⟩

/-- However a call ends, the HOST is idle, with both units stopped. -/
theorem callEnds_hostOk {p : Params} {b c : Block} (ends : b.CallEnds c) (henc : b.encRun = false)
    (hdec : b.decRun = false) (hidle : b.idleCnt ≤ p.nIdle) (hid : b.curId ≠ Config.esc) : hostOk p c := by
  cases ends with
  | raised hk => exact raise_hostOk hk hidle hid
  | status hk hst => exact ⟨.inl ⟨rfl, henc, hdec, rfl⟩, ⟨fun _ => hk, fun _ => rfl⟩, hst, hidle, hid⟩

theorem callEnds_blockOk {cap : Nat} {b c : Block} (ends : b.CallEnds c) (hb : blockOk cap b) : blockOk cap c := by
  cases ends with
  | raised => exact raise_blockOk hb
  | status => exact hb

theorem hostEvent_blockOk {p : Params} {i : HostIn} {b c : Block} (e : b.HostEvent p i c)
    (hb : blockOk p.capTxPay b) : blockOk p.capTxPay c := by
  cases e with
  | idle => exact hb
  | tick _ => exact countTick_blockOk _ hb
  | call _ _ _ hn => exact beginCall_blockOk hb hn
  | fail _ => exact raise_blockOk hb
  | send _ hrun once _ => exact sendOnce_blockOk hb hrun once
  | sent _ hrun once _ => exact turnToReceive_blockOk _ (sendOnce_blockOk hb hrun once)
  | recv v _ hrun _ => exact recvOnce_blockOk v hb hrun
  | judged v _ hrun _ ends => exact callEnds_blockOk ends (recvOnce_blockOk v hb hrun)
  | expired _ _ _ ends =>
    exact callEnds_blockOk ends (countTick_blockOk p.nIdle hb : blockOk _ (b.expire p.nIdle))

theorem hostEvent_hostOk {p : Params} {i : HostIn} {b c : Block} (e : b.HostEvent p i c) (h : hostOk p b) :
    hostOk p c := by
  have ⟨_, hdone, hst, hidle, hid⟩ := h
  cases e with
  | idle => exact h
  | tick _ => simpa [hostOk, countTick_idleCnt_le hidle, hidle] using h
  | call htr _ hid' _ =>
    exact ⟨.inr (.inl ⟨rfl, rfl, (hostOk_idle h htr).2, rfl, rfl⟩), by simp, fun _ => rfl, hidle, hid'⟩
  | fail _ => exact raise_hostOk (by decide) hidle hid
  | send htr _ once hgo =>
    obtain ⟨-, hdec, hbusy, hdone'⟩ := hostOk_sending h htr
    obtain ⟨_, _, _, rfl, -⟩ := sendOnce_writes once
    exact ⟨.inr (.inl ⟨htr, hgo, hdec, hbusy, hdone'⟩), hdone, hst, hidle, hid⟩
  | sent htr _ once hstop =>
    obtain ⟨-, -, hbusy, hdone'⟩ := hostOk_sending h htr
    obtain ⟨_, _, _, rfl, -⟩ := sendOnce_writes once
    exact ⟨.inr (.inr ⟨rfl, hstop, rfl, hbusy, hdone'⟩), hdone, hst, Nat.zero_le _, hid⟩
  | recv v htr _ hgo =>
    obtain ⟨henc, -, hbusy, hdone'⟩ := hostOk_receiving h htr
    obtain ⟨_, _, _, _, _, _, e, -⟩ := recvOnce_writes b v
    rw [e] at hgo ⊢
    exact ⟨.inr (.inr ⟨htr, henc, hgo, hbusy, hdone'⟩), hdone, hst, Nat.zero_le _, hid⟩
  | judged v htr _ hstop ends =>
    obtain ⟨henc, -⟩ := hostOk_receiving h htr
    obtain ⟨_, _, _, _, _, _, e, -⟩ := recvOnce_writes b v
    rw [e] at hstop ends
    exact callEnds_hostOk ends henc hstop (Nat.zero_le _) hid
  | expired htr _ _ ends =>
    obtain ⟨henc, -⟩ := hostOk_receiving h htr
    exact callEnds_hostOk ends (by simpa [Block.expire] using henc) rfl (countTick_idleCnt_le hidle)
      (by simpa [Block.expire] using hid)

/-! ### The events of a DEVICE cycle -/

/-- What a DEVICE cycle without reset and port write does to the registers, by the operation it selects
(43_device_responder R210) and the pulse that is given. -/
inductive Block.DeviceEvent (pulse : Option (Byte × Nat)) (b : Block) : Block → Prop
  | idle : Block.DeviceEvent pulse b b
  | respond {st : Byte} {n : Nat} (htr : b.trState = .dDispatch) (hack : pulse = some (st, n))
      (hn : n ≤ Config.devCapTx) : Block.DeviceEvent pulse b (b.beginResponse st n)
  | send {v : Byte} {c : Block} (htr : b.trState = .dSend) (hrun : b.encRun = true)
      (once : b.sendOnce = some (v, c)) (hgo : c.encRun = true) : Block.DeviceEvent pulse b c
  | sent {v : Byte} {c : Block} (htr : b.trState = .dSend) (hrun : b.encRun = true)
      (once : b.sendOnce = some (v, c)) (hstop : c.encRun = false) :
      Block.DeviceEvent pulse b (c.turnToReceive .device)
  | recv (v : Byte) (htr : b.trState = .dRecv) (hrun : b.decRun = true) (hgo : (b.recvOnce v).decRun = true) :
      Block.DeviceEvent pulse b (b.recvOnce v)
  | discard (v : Byte) (htr : b.trState = .dRecv) (hrun : b.decRun = true)
      (hstop : (b.recvOnce v).decRun = false) : Block.DeviceEvent pulse b (b.recvOnce v).decStart
  | dispatch (v : Byte) {id : Byte} (htr : b.trState = .dRecv) (hrun : b.decRun = true)
      (hstop : (b.recvOnce v).decRun = false) (hlen : 2 ≤ (b.recvOnce v).decLen)
      (hid : Memory.read (b.recvOnce v).rxbuf 0 = some id) :
      Block.DeviceEvent pulse b { b.recvOnce v with curId := id, trState := .dDispatch }

theorem execDevRespond_next {s t : State} {st : Byte} {n : Nat} (htr : s.device.trState = .dDispatch)
    (h : exec (.devRespond st n) s = .next t) :
    n ≤ Config.devCapTx ∧ t = { s with device := s.device.beginResponse st n } := by
  change execDevRespond st n s = .next t at h
  unfold execDevRespond at h
  rw [if_pos htr] at h
  split at h
  · cases h
  · next hn => cases h; exact ⟨Nat.not_lt.1 hn, rfl⟩

theorem execDevSend_next {s t : State} (h : exec .devSend s = .next t) :
    s.device.trState = .dSend ∧ s.device.encRun = true ∧
    ∃ u, encoderOp .device s = .next u ∧ t = u.afterAccept .device := by
  have ⟨htr, hrun⟩ : s.device.trState = .dSend ∧ s.device.encRun = true := by
    change execDevSend s = .next t at h
    unfold execDevSend at h
    split at h
    · next c => exact c
    · cases h
  have send : exec .devSend s = _ := if_pos ⟨htr, hrun⟩
  rw [send] at h
  obtain ⟨u, enc, -⟩ := andThen_next h
  have whole := devSend_of_encoderOp htr hrun enc
  rw [send, h] at whole
  cases whole
  exact ⟨htr, hrun, u, enc, rfl⟩

/-- DEV.RECV as the whole outcome: the byte, and what follows if it ended the decode (43_device_responder R211). -/
theorem execDevRecv_eq {s : State} (v : Byte) (htr : s.device.trState = .dRecv) (hrun : s.device.decRun = true) :
    exec (.devRecv v) s =
      if (s.device.recvOnce v).decRun = false then afterDecode (s.setBlock .device (s.device.recvOnce v))
      else .next (s.setBlock .device (s.device.recvOnce v)) := by
  have recv : exec (.devRecv v) s = _ := if_pos ⟨htr, hrun⟩
  rw [recv, decoderOp_of_decRun (r := .device) v hrun, andThen_of_next]
  rfl

/-- DEV.SEND, when it answers, is a send event (43_device_responder R216). -/
theorem devSend_event {pulse : Option (Byte × Nat)} {s t : State} (h : exec .devSend s = .next t) :
    ∃ c dh, t = { s with device := c, dh := dh } ∧ s.device.DeviceEvent pulse c := by
  obtain ⟨htr, hrun, u, enc, rfl⟩ := execDevSend_next h
  obtain ⟨v, b, once, rfl⟩ := encoderOp_sendOnce enc
  obtain ⟨q, hq⟩ := emit_device_eq (s.setBlock .device b) v
  by_cases hgo : b.encRun = true
  · rw [afterAccept_running (by simpa using hgo), hq]
    exact ⟨_, _, rfl, .send htr hrun once hgo⟩
  · have hstop : b.encRun = false := by simpa using hgo
    rw [afterAccept_stopped (by simpa using hstop), hq]
    exact ⟨_, _, rfl, .sent htr hrun once hstop⟩

/-- DEV.RECV, when it answers, is a receive event, a discarded frame or a command that waits (43_device_responder R211
to R214). -/
theorem devRecv_event {pulse : Option (Byte × Nat)} {s t : State} {v : Byte} (htr : s.device.trState = .dRecv)
    (hrun : s.device.decRun = true) (h : exec (.devRecv v) s = .next t) :
    ∃ c, t = { s with device := c } ∧ s.device.DeviceEvent pulse c := by
  rw [execDevRecv_eq v htr hrun] at h
  split at h
  · next hstop =>
    obtain ⟨-, -, ⟨-, rfl⟩ | ⟨-, -, rfl⟩ | ⟨-, hlen, id, hid, rfl⟩⟩ := afterDecode_next h
    · exact ⟨_, rfl, .discard v htr hrun hstop⟩
    · exact ⟨_, rfl, .discard v htr hrun hstop⟩
    · exact ⟨_, rfl, .dispatch v htr hrun hstop hlen hid⟩
  · next hgo =>
    cases h
    exact ⟨_, rfl, .recv v htr hrun (by simpa using hgo)⟩

/-- Every DEVICE cycle that answers is an event of its registers, and beyond them moves only the streams and withdraws
the answer. -/
theorem deviceCycle_event {i : DevIn} {s t : State} (hrst : i.rst = false) (hpw : i.pw = none)
    (h : deviceCycle i s = .next t) :
    ∃ c hd dh ans, t = { s with device := c, hd := hd, dh := dh, disp := { s.disp with answer := ans } } ∧
      (ans = s.disp.answer ∨ ans = none) ∧ s.device.DeviceEvent (ackPulse i s) c := by
  rcases deviceCycle_next h with ⟨hr, -⟩ | ⟨-, -, ⟨-, rfl⟩ | ⟨op, sel, hop⟩⟩
  · rw [hrst] at hr; cases hr
  · rw [dispatcherWrite_none hpw]
    exact ⟨_, _, _, _, rfl, .inl rfl, .idle⟩
  · rw [dispatcherWrite_none hpw] at hop
    rcases deviceSelect_some sel with ⟨htr, v, hv, rfl⟩ | ⟨htr, st, n, hack, rfl⟩ | ⟨-, -, rfl⟩
    · obtain ⟨c, rfl, e⟩ := devRecv_event (s := s.takeFront .device) htr (decRun_of_delivered hv) hop
      exact ⟨c, _, _, _, rfl, .inl rfl, e⟩
    · obtain ⟨hn, rfl⟩ := execDevRespond_next (by exact htr) hop
      exact ⟨_, _, _, none, rfl, .inr rfl, .respond htr hack hn⟩
    · obtain ⟨c, dh, rfl, e⟩ := devSend_event hop
      exact ⟨c, _, dh, _, rfl, .inl rfl, e⟩

/-! ### A DEVICE cycle keeps the invariant -/

theorem deviceOk_receiving {b : Block} (h : deviceOk b) (htr : b.trState = .dRecv) :
    b.encRun = false ∧ b.decRun = true ∧ b.decRes = .noResult := by
  obtain ⟨⟨-, h⟩ | ⟨htr', -⟩ | ⟨htr', -⟩, -⟩ := h
  · exact h
  · rw [htr] at htr'; cases htr'
  · rw [htr] at htr'; cases htr'

theorem deviceOk_dispatching {b : Block} (h : deviceOk b) (htr : b.trState = .dDispatch) :
    b.encRun = false ∧ b.decRun = false ∧ 2 ≤ b.decLen ∧ Memory.read b.rxbuf 0 = some b.curId := by
  obtain ⟨⟨htr', -⟩ | ⟨-, h⟩ | ⟨htr', -⟩, -⟩ := h
  · rw [htr] at htr'; cases htr'
  · exact h
  · rw [htr] at htr'; cases htr'

theorem deviceOk_sending {b : Block} (h : deviceOk b) (htr : b.trState = .dSend) :
    b.encRun = true ∧ b.decRun = false ∧ b.hdr0 = b.curId := by
  obtain ⟨⟨htr', -⟩ | ⟨htr', -⟩ | ⟨-, h⟩, -⟩ := h
  · rw [htr] at htr'; cases htr'
  · rw [htr] at htr'; cases htr'
  · exact h

theorem beginResponse_blockOk {cap n : Nat} {b : Block} {st : Byte} (hb : blockOk cap b) (hn : n ≤ cap) :
    blockOk cap (b.beginResponse st n) := beginCall_blockOk (id := b.curId) (op := st) hb hn

theorem deviceEvent_blockOk {pulse : Option (Byte × Nat)} {b c : Block} (e : b.DeviceEvent pulse c)
    (hb : blockOk Config.devCapTx b) : blockOk Config.devCapTx c := by
  cases e with
  | idle => exact hb
  | respond _ _ hn => exact beginResponse_blockOk hb hn
  | send _ hrun once _ => exact sendOnce_blockOk hb hrun once
  | sent _ hrun once _ => exact turnToReceive_blockOk _ (sendOnce_blockOk hb hrun once)
  | recv v _ hrun _ => exact recvOnce_blockOk v hb hrun
  | discard v _ hrun _ => exact decStart_blockOk (recvOnce_blockOk v hb hrun)
  | dispatch v _ hrun _ _ _ => exact recvOnce_blockOk v hb hrun

theorem deviceEvent_deviceOk {pulse : Option (Byte × Nat)} {b c : Block} (e : b.DeviceEvent pulse c)
    (h : deviceOk b) : deviceOk c := by
  have ⟨_, hidle, rest⟩ := h
  cases e with
  | idle => exact h
  | respond htr _ _ =>
    obtain ⟨-, hdec, -⟩ := deviceOk_dispatching h htr
    exact ⟨.inr (.inr ⟨rfl, rfl, hdec, rfl⟩), hidle, rest⟩
  | send htr _ once hgo =>
    obtain ⟨-, hdec, hhdr⟩ := deviceOk_sending h htr
    obtain ⟨_, _, _, rfl, -⟩ := sendOnce_writes once
    exact ⟨.inr (.inr ⟨htr, hgo, hdec, hhdr⟩), hidle, rest⟩
  | sent _ _ once hstop =>
    obtain ⟨_, _, _, rfl, -⟩ := sendOnce_writes once
    exact ⟨.inl ⟨rfl, hstop, rfl, rfl⟩, rfl, rest⟩
  | recv v htr _ hgo =>
    obtain ⟨henc, -, hres⟩ := deviceOk_receiving h htr
    obtain ⟨_, _, _, _, run, res, e, same | ⟨hrun, -⟩⟩ := recvOnce_writes b v
    · rw [e] at hgo ⊢
      exact ⟨.inl ⟨htr, henc, hgo, same.2.trans hres⟩, rfl, rest⟩
    · rw [e, hrun] at hgo; cases hgo
  | discard v htr _ _ =>
    obtain ⟨henc, -⟩ := deviceOk_receiving h htr
    obtain ⟨_, _, _, _, _, _, e, -⟩ := recvOnce_writes b v
    rw [e]
    exact ⟨.inl ⟨htr, henc, rfl, rfl⟩, rfl, rest⟩
  | dispatch v htr _ hstop hlen hid =>
    obtain ⟨henc, -⟩ := deviceOk_receiving h htr
    obtain ⟨_, _, _, _, _, _, e, -⟩ := recvOnce_writes b v
    rw [e] at hstop hlen hid ⊢
    exact ⟨.inr (.inl ⟨rfl, henc, hstop, hlen, hid⟩), rfl, rest⟩

/-! ### The dispatcher's replies keep the resident state legal -/

theorem answerGet_disp (v : List Byte) (d : Dispatcher) (p : List Byte) (c : Bool) : (answerGet v d p c).disp = d := by
  unfold answerGet
  split <;> rfl

theorem replySetOds_disp (d : Dispatcher) (p : List Byte) (c : Bool) :
    ∃ o, (replySetOds d p c).disp = { d with ods := o } := by
  unfold replySetOds
  split
  · exact ⟨d.ods, rfl⟩
  · split
    · exact ⟨_, rfl⟩
    · exact ⟨d.ods, rfl⟩

theorem replySetPa_disp (d : Dispatcher) (p : List Byte) (c : Bool) :
    ∃ v, (replySetPa d p c).disp = { d with pa := v } := by
  unfold replySetPa
  split
  · exact ⟨d.pa, rfl⟩
  · split
    · exact ⟨_, rfl⟩
    · exact ⟨d.pa, rfl⟩

theorem replySetFreq_disp (d : Dispatcher) (p : List Byte) (c : Bool) :
    ∃ v, (replySetFreq d p c).disp = { d with freq := v } := by
  unfold replySetFreq
  split
  · exact ⟨d.freq, rfl⟩
  · exact ⟨_, rfl⟩

theorem replySetFdev_disp (d : Dispatcher) (p : List Byte) (c : Bool) :
    ∃ v, (replySetFdev d p c).disp = { d with fdev := v } := by
  unfold replySetFdev
  split
  · split
    · exact ⟨_, rfl⟩
    · exact ⟨d.fdev, rfl⟩
  · exact ⟨d.fdev, rfl⟩

/-- SET_ENC keeps the encoding or takes a legal one (45_dispatcher_interface R245). -/
theorem replySetEnc_disp (d : Dispatcher) (p : List Byte) (c : Bool) :
    (replySetEnc d p c).disp = d ∨
    ∃ v : Byte, v.toNat ≤ encodingMax ∧ (replySetEnc d p c).disp = { d with enc := v } := by
  unfold replySetEnc
  split
  · exact .inl rfl
  · split
    · next v hv => exact .inr ⟨v, hv, rfl⟩
    · exact .inl rfl
  · split
    · exact .inl rfl
    · exact .inl rfl

/-- APPEND_FRAME keeps the Frame Buffer or extends it within its capacity (45_dispatcher_interface R247). -/
theorem replyAppendFrame_disp (d : Dispatcher) (p : List Byte) (c : Bool) :
    (replyAppendFrame d p c).disp = d ∨
    (d.frameBuf ++ p).length ≤ Config.frameBufCap ∧
      (replyAppendFrame d p c).disp = { d with frameBuf := d.frameBuf ++ p } := by
  unfold replyAppendFrame
  split
  · exact .inl rfl
  · next hlen => exact .inr ⟨by rw [List.length_append]; omega, rfl⟩

theorem replyRfSend_disp (d : Dispatcher) (p : List Byte) (c : Bool) : (replyRfSend d p c).disp = d := by
  unfold replyRfSend
  split
  · split <;> rfl
  · split <;> rfl

/-- Any command leaves the resident state legal: what it takes over it has tested, or no rule bounds it. -/
theorem dispatchReply_dispatcherOk (op : Byte) {d : Dispatcher} {p : List Byte} (c : Bool) (hd : dispatcherOk d)
    (hp : p.length ≤ Config.frameBufCap) : dispatcherOk (dispatchReply op d p c).disp := by
  have ⟨henc, hbuf, hconst⟩ := hd
  have get (v : List Byte) : dispatcherOk (answerGet v d p c).disp := by rw [answerGet_disp]; exact hd
  unfold dispatchReply
  split
  · exact get _
  · exact get _
  · exact get _
  · exact get _
  · obtain ⟨_, e⟩ := replySetOds_disp d p c
    rw [e]; exact hd
  · exact get _
  · obtain ⟨_, e⟩ := replySetPa_disp d p c
    rw [e]; exact hd
  · exact get _
  · obtain ⟨_, e⟩ := replySetFreq_disp d p c
    rw [e]; exact hd
  · exact get _
  · obtain ⟨_, e⟩ := replySetFdev_disp d p c
    rw [e]; exact hd
  · exact get _
  · rcases replySetEnc_disp d p c with e | ⟨_, hv, e⟩
    · rw [e]; exact hd
    · rw [e]; exact ⟨hv, hbuf, hconst⟩
  · exact ⟨henc, hp, hconst⟩
  · rcases replyAppendFrame_disp d p c with e | ⟨hlen, e⟩
    · rw [e]; exact hd
    · rw [e]; exact ⟨henc, hlen, hconst⟩
  · rw [replyRfSend_disp]; exact hd
  · exact hd

/-- A service of the dispatcher: nothing, or the answer to the command that waits, whose bytes are all there
(45_dispatcher_interface R230). -/
theorem dispatcherMove_cases {s : State} (hb : blockOk Config.devCapTx s.device) (hd : deviceOk s.device) :
    dispatcherMove s = .next s ∨
    ∃ op p, p.length ≤ 254 ∧
      dispatcherMove s = .next (answered s (dispatchReply op s.disp p (Config.freeChoice s.freeCtr))) := by
  by_cases c : s.device.dispReq = true ∧ s.disp.answer = none
  · right
    obtain ⟨-, -, hcap, hread, -⟩ := hb
    have htr : s.device.trState = .dDispatch := by simpa [Block.dispReq] using c.1
    obtain ⟨-, -, hlen, -⟩ := deviceOk_dispatching hd htr
    obtain ⟨op, hop⟩ := Option.isSome_iff_exists.1 (hread 1 (by omega))
    obtain ⟨p, hp⟩ := Option.isSome_iff_exists.1
      (readRange_isSome (m := s.device.rxbuf) (n := s.device.decLen - 2) (a := 2) fun k _ hk => hread k (by omega))
    refine ⟨op, p, by rw [readRange_length hp]; simp only [Config.capRx] at hcap; omega, ?_⟩
    rw [← exec_decodeOpcode ⟨htr, c.2, hp⟩ op]
    simp [dispatcherMove, commandSelect, c, Block.cmdOpcode, hop, decode]
  · exact .inl (if_neg c)

/-- An answer that fits is stored within `TXPAY`. -/
theorem answered_blockOk {cap : Nat} {s : State} {r : Reply} (hb : blockOk cap s.device) (hr : r.payload.length ≤ cap) :
    blockOk cap (answered s r).device := by
  obtain ⟨⟨hwf, hcap⟩, rest⟩ := hb
  exact ⟨⟨wf_writeList _ 0 hwf, writeList_below _ hcap (by omega)⟩, rest⟩

/-! ### Every move keeps the invariant -/

theorem clientWrite_inv {s : State} (i : HostIn) (h : Inv s) : Inv (clientWrite i s) := by
  obtain ⟨hb, hh, rest⟩ := h
  exact ⟨portWrite_blockOk hb, by simpa [hostOk, clientWrite] using hh, rest⟩

theorem dispatcherWrite_inv {s : State} (i : DevIn) (h : Inv s) : Inv (dispatcherWrite i s) := by
  obtain ⟨hb, hh, db, dd, hd⟩ := h
  exact ⟨hb, hh, portWrite_blockOk db, by simpa [deviceOk, dispatcherWrite] using dd, hd⟩

theorem hostCycle_inv {i : HostIn} {s t : State} (h : Inv s) (hs : hostCycle i s = .next t) :
    Inv t ∧ t.params = s.params := by
  by_cases hrst : i.rst = true
  · rw [hostCycle_reset hrst] at hs
    cases hs
    obtain ⟨-, -, rest⟩ := h
    exact ⟨⟨blockReset_blockOk _ _, blockReset_hostOk _, rest⟩, rfl⟩
  · rw [hostCycle_portWrite] at hs
    obtain ⟨c, _, _, rfl, e⟩ := hostCycle_event (by simpa using hrst) rfl hs
    obtain ⟨hb, hh, rest⟩ := clientWrite_inv i h
    exact ⟨⟨hostEvent_blockOk e hb, hostEvent_hostOk e hh, rest⟩, rfl⟩

/-- Withdrawing the answer leaves the resident state legal. -/
theorem dispatcherOk_withdrawn {d : Dispatcher} {ans : Option (Byte × Nat)} (h : dispatcherOk d)
    (hans : ans = d.answer ∨ ans = none) : dispatcherOk { d with answer := ans } := by
  obtain ⟨henc, hbuf, htype, hrev, hn⟩ := h
  refine ⟨henc, hbuf, htype, hrev, ?_⟩
  rcases hans with rfl | rfl
  · exact hn
  · exact fun _ _ h => nomatch h

theorem deviceCycle_inv {i : DevIn} {s t : State} (h : Inv s) (hs : deviceCycle i s = .next t) :
    Inv t ∧ t.params = s.params := by
  by_cases hrst : i.rst = true
  · rw [deviceCycle_reset hrst] at hs
    cases hs
    obtain ⟨hb, hh, -, -, hd⟩ := h
    exact ⟨⟨hb, hh, blockReset_blockOk _ _, blockReset_deviceOk, dispatcherOk_withdrawn hd (.inr rfl)⟩, rfl⟩
  · rw [deviceCycle_portWrite] at hs
    obtain ⟨c, _, _, ans, rfl, hans, e⟩ := deviceCycle_event (by simpa using hrst) rfl hs
    obtain ⟨hb, hh, db, dd, hd⟩ := dispatcherWrite_inv i h
    exact ⟨⟨hb, hh, deviceEvent_blockOk e db, deviceEvent_deviceOk e dd, dispatcherOk_withdrawn hd hans⟩, rfl⟩

/-- The answer to a command that waits keeps the invariant. -/
theorem answered_inv {s : State} (h : Inv s) (op : Byte) {p : List Byte} (hp : p.length ≤ 254) (c : Bool) :
    Inv (answered s (dispatchReply op s.disp p c)) := by
  obtain ⟨hb, hh, db, dd, hd⟩ := h
  have short : (dispatchReply op s.disp p c).payload.length ≤ Config.devCapTx :=
    (dispatchReply_length_le op s.disp p c).trans (by decide)
  obtain ⟨henc, hbuf, htype, hrev, -⟩ := dispatchReply_dispatcherOk op c hd (hp.trans (by decide))
  refine ⟨hb, hh, answered_blockOk db short, dd, henc, hbuf, htype, hrev, fun st n hans => ?_⟩
  cases hans
  exact short

theorem dispatcherMove_inv {s t : State} (h : Inv s) (hs : dispatcherMove s = .next t) :
    Inv t ∧ t.params = s.params := by
  have ⟨_, _, db, dd, _⟩ := h
  rcases dispatcherMove_cases db dd with e | ⟨op, p, hp, e⟩
  · rw [e] at hs; cases hs; exact ⟨h, rfl⟩
  · rw [e] at hs; cases hs; exact ⟨answered_inv h op hp _, rfl⟩

theorem setStream_inv {s : State} (r : Role) (q : List Byte) (h : Inv s) : Inv (s.setStream r q) := by
  cases r
  · exact h
  · exact h

theorem startDispatcher_inv {s : State} (h : Inv s) : Inv (startDispatcher s) := by
  obtain ⟨hb, hh, db, dd, -⟩ := h
  exact ⟨hb, hh, db, dd, dispatcherStart_ok⟩

theorem runMove_inv {m : Move} {s t : State} (h : Inv s) (hs : runMove m s = .next t) :
    Inv t ∧ t.params = s.params := by
  cases m with
  | host i => exact hostCycle_inv (s := { s with turn := .host }) h hs
  | device i => exact deviceCycle_inv (s := { s with turn := .device }) h hs
  | dispatcher => exact dispatcherMove_inv h hs
  | dispatcherStart => cases hs; exact ⟨startDispatcher_inv h, rfl⟩
  | lose r k => cases hs; exact ⟨setStream_inv r _ h, setStream_params s r _⟩
  | alter r k v => cases hs; exact ⟨setStream_inv r _ h, setStream_params s r _⟩

/-- Settles O49: a step is the next move of the script, and every move keeps the invariant. -/
theorem invKeptByEveryStep : Obligations.InvKeptByEveryStep := by
  intro s t h hs
  cases script : s.script with
  | nil =>
    simp only [step, script] at hs
    cases hs
    exact ⟨h, rfl⟩
  | cons m rest =>
    rw [step_of_script script] at hs
    exact runMove_inv (s := { s with script := rest }) h hs

end Sys2Proof.Machine

/-! PROOF of O50 (93 U8, U9, U11). A block whose frame has been written answers in every cycle that keeps the duties of
the surroundings, and by the events of its registers (`Block.HostEvent`, `Block.DeviceEvent`) its frame stays
written. -/

namespace Sys2Proof.Machine

/-! ### Written payloads -/

/-- The first `n` bytes of a buffer have been written. -/
def Memory.filledTo (m : Memory) (n : Nat) : Prop := ∀ k, k < n → (Memory.read m k).isSome

theorem sendReady_iff {b : Block} : sendReady b ↔ (b.encRun = true → b.txpay.filledTo b.txPlen) := Iff.rfl

/-- A write takes no value away. -/
theorem filledTo_write {m : Memory} {n : Nat} (a : Nat) (v : Byte) (h : m.filledTo n) : (m.write a v).filledTo n := by
  intro k hk
  by_cases hka : k = a
  · rw [hka, read_write_same]
    rfl
  · rw [read_write_other _ _ hka]
    exact h k hk

theorem filledTo_writeList (l : List Byte) {m : Memory} {n : Nat} (a : Nat) (h : m.filledTo n) :
    (m.writeList a l).filledTo n := by
  induction l generalizing m a with
  | nil => exact h
  | cons v l ih => exact ih (a + 1) (filledTo_write a v h)

/-- What has just been written from index 0 on is there. -/
theorem filledTo_writeList_self (l : List Byte) (m : Memory) : (m.writeList 0 l).filledTo l.length := by
  intro k hk
  have read := read_of_readRange (readRange_writeList l m 0) hk
  rw [Nat.zero_add] at read
  rw [read]
  simpa using hk

theorem filledTo_portWrite {b : Block} {n : Nat} (open_ : Bool) (cap : Nat) (pw : Option (Nat × Byte))
    (h : b.txpay.filledTo n) : (b.portWrite open_ cap pw).txpay.filledTo n := by
  rcases portWrite_cases b open_ cap pw with e | ⟨a, v, -, -, -, e⟩
  · rw [e]; exact h
  · rw [e]; exact filledTo_write a v h

theorem portWrite_sendReady {b : Block} (open_ : Bool) (cap : Nat) (pw : Option (Nat × Byte)) (h : sendReady b) :
    sendReady (b.portWrite open_ cap pw) := by
  rw [sendReady_iff, portWrite_encRun, portWrite_txPlen]
  exact fun hrun => filledTo_portWrite open_ cap pw (h hrun)

/-! ### Events keep the frame that is sent -/

/-- `c` sends no frame that `b` does not. -/
def Block.keepsFrame (b c : Block) : Prop :=
  c.txpay = b.txpay ∧ c.txPlen = b.txPlen ∧ (c.encRun = true → b.encRun = true)

theorem keepsFrame_trans {a b c : Block} (h : a.keepsFrame b) (h' : b.keepsFrame c) : a.keepsFrame c := by
  obtain ⟨hpay, hlen, hrun⟩ := h
  obtain ⟨hpay', hlen', hrun'⟩ := h'
  exact ⟨hpay'.trans hpay, hlen'.trans hlen, fun h => hrun (hrun' h)⟩

theorem sendReady_of_keepsFrame {b c : Block} (h : b.keepsFrame c) (ready : sendReady b) : sendReady c := by
  obtain ⟨hpay, hlen, hrun⟩ := h
  rw [sendReady_iff, hpay, hlen]
  exact fun h => ready (hrun h)

theorem sendOnce_keepsFrame {b c : Block} {v : Byte} (hrun : b.encRun = true) (once : b.sendOnce = some (v, c)) :
    b.keepsFrame c := by
  obtain ⟨_, _, _, rfl, -⟩ := sendOnce_writes once
  exact ⟨rfl, rfl, fun _ => hrun⟩

theorem recvOnce_keepsFrame (b : Block) (v : Byte) : b.keepsFrame (b.recvOnce v) := by
  obtain ⟨_, _, _, _, _, _, e, -⟩ := recvOnce_writes b v
  rw [e]
  exact ⟨rfl, rfl, id⟩

theorem countTick_keepsFrame (b : Block) (n : Nat) : b.keepsFrame (b.countTick n) :=
  ⟨countTick_txpay b n, countTick_txPlen b n, fun h => (countTick_encRun b n).symm.trans h⟩

theorem callEnds_keepsFrame {b c : Block} (ends : b.CallEnds c) : b.keepsFrame c := by
  cases ends with
  | raised => exact ⟨rfl, rfl, fun h => Bool.noConfusion h⟩
  | status => exact ⟨rfl, rfl, id⟩

/-- The only HOST event that begins a frame is a call (42_host_correlator R181). -/
theorem hostEvent_keepsFrame {p : Params} {i : HostIn} {b c : Block} (e : b.HostEvent p i c) :
    b.keepsFrame c ∨
    ∃ id op n, b.trState = .hIdle ∧ i.start = some (id, op, n) ∧ c = b.beginCall id op n := by
  cases e with
  | idle => exact .inl ⟨rfl, rfl, id⟩
  | tick _ => exact .inl (countTick_keepsFrame _ _)
  | call htr hstart _ _ => exact .inr ⟨_, _, _, htr, hstart, rfl⟩
  | fail _ => exact .inl (callEnds_keepsFrame (.raised (by decide)))
  | send _ hrun once _ => exact .inl (sendOnce_keepsFrame hrun once)
  | sent _ hrun once _ => exact .inl (keepsFrame_trans (sendOnce_keepsFrame hrun once) ⟨rfl, rfl, id⟩)
  | recv v _ _ _ => exact .inl (recvOnce_keepsFrame b v)
  | judged v _ _ _ ends => exact .inl (keepsFrame_trans (recvOnce_keepsFrame b v) (callEnds_keepsFrame ends))
  | expired _ _ _ ends =>
    have expire : b.keepsFrame (b.expire p.nIdle) := countTick_keepsFrame b p.nIdle
    exact .inl (keepsFrame_trans expire (callEnds_keepsFrame ends))

/-- The only DEVICE event that begins a frame is a response (43_device_responder R215). -/
theorem deviceEvent_keepsFrame {pulse : Option (Byte × Nat)} {b c : Block} (e : b.DeviceEvent pulse c) :
    b.keepsFrame c ∨ ∃ st n, b.trState = .dDispatch ∧ pulse = some (st, n) ∧ c = b.beginResponse st n := by
  cases e with
  | idle => exact .inl ⟨rfl, rfl, id⟩
  | respond htr hack _ => exact .inr ⟨_, _, htr, hack, rfl⟩
  | send _ hrun once _ => exact .inl (sendOnce_keepsFrame hrun once)
  | sent _ hrun once _ => exact .inl (keepsFrame_trans (sendOnce_keepsFrame hrun once) ⟨rfl, rfl, id⟩)
  | recv v _ _ _ => exact .inl (recvOnce_keepsFrame b v)
  | discard v _ _ _ => exact .inl (keepsFrame_trans (recvOnce_keepsFrame b v) ⟨rfl, rfl, id⟩)
  | dispatch v _ _ _ _ _ => exact .inl (keepsFrame_trans (recvOnce_keepsFrame b v) ⟨rfl, rfl, id⟩)

theorem hostEvent_sendReady {p : Params} {i : HostIn} {b c : Block} (e : b.HostEvent p i c) (ready : sendReady b)
    (written : b.trState = .hIdle → ∀ id op n, i.start = some (id, op, n) → b.txpay.filledTo n) : sendReady c := by
  rcases hostEvent_keepsFrame e with keeps | ⟨id, op, n, htr, hstart, rfl⟩
  · exact sendReady_of_keepsFrame keeps ready
  · exact fun _ => written htr id op n hstart

theorem deviceEvent_sendReady {pulse : Option (Byte × Nat)} {b c : Block} (e : b.DeviceEvent pulse c)
    (ready : sendReady b)
    (written : b.trState = .dDispatch → ∀ st n, pulse = some (st, n) → b.txpay.filledTo n) : sendReady c := by
  rcases deviceEvent_keepsFrame e with keeps | ⟨st, n, htr, hack, rfl⟩
  · exact sendReady_of_keepsFrame keeps ready
  · exact fun _ => written htr st n hack

theorem deviceEvent_txpay {pulse : Option (Byte × Nat)} {b c : Block} (e : b.DeviceEvent pulse c) :
    c.txpay = b.txpay := by
  rcases deviceEvent_keepsFrame e with ⟨hpay, -⟩ | ⟨st, n, -, -, rfl⟩
  · exact hpay
  · rfl

/-! ### Operations that are selected answer -/

theorem readFault_none {b : Block} {rd : Option Nat} (h : readOk b rd) : b.readFault rd = none := by
  cases rd with
  | none => rfl
  | some a =>
    obtain ⟨ha, hread⟩ := h a rfl
    obtain ⟨v, hv⟩ := Option.isSome_iff_exists.1 hread
    simp [Block.readFault, Nat.not_le.2 ha, hv]

/-- Every byte of a frame whose payload has been written has a value (40_encoder R137). -/
theorem frameByte_written {b : Block} {k : Nat} (hk : k < 2 + b.txPlen) (h : b.txpay.filledTo b.txPlen) :
    ∃ v, b.frameByte k = some v := by
  match k with
  | 0 => exact ⟨_, rfl⟩
  | 1 => exact ⟨_, rfl⟩
  | k + 2 => exact Option.isSome_iff_exists.1 (h k (by omega))

/-- An encoder that runs on a written payload has a byte to send (40_encoder R138). -/
theorem sendOnce_total {cap : Nat} {b : Block} (hb : blockOk cap b) (ready : sendReady b) (hrun : b.encRun = true) :
    ∃ v c, b.sendOnce = some (v, c) := by
  obtain ⟨-, -, -, -, -, hle, -, hrunning, -⟩ := hb
  obtain ⟨hn, hdone⟩ := hrunning hrun
  cases hph : b.encPh with
  | data =>
    by_cases hi : b.encIdx = b.encN
    · exact ⟨_, _, sendOnce_last hph hi⟩
    · obtain ⟨v, hv⟩ := frameByte_written (k := b.encIdx) (by omega) (ready hrun)
      by_cases hesc : v = Config.esc
      · exact ⟨_, _, sendOnce_esc hph hi (hesc ▸ hv)⟩
      · exact ⟨_, _, sendOnce_literal hph hi hv hesc⟩
  | stuff2 => exact ⟨_, _, sendOnce_stuff2 hph⟩
  | term2 => exact ⟨_, _, sendOnce_term2 hph⟩
  | done => exact absurd hph hdone

/-- A frame whose decoded bytes are all there is judged (42_host_correlator R189). -/
theorem validateFrame_total {s : State} (hread : ∀ a, a < s.host.decLen → (Memory.read s.host.rxbuf a).isSome) :
    ∃ t, validateFrame s = .next t := by
  unfold validateFrame
  dsimp only
  split
  · exact ⟨_, rfl⟩
  · next hlen =>
    obtain ⟨id, hid⟩ := Option.isSome_iff_exists.1 (hread 0 (by omega))
    obtain ⟨st, hst⟩ := Option.isSome_iff_exists.1 (hread 1 (by omega))
    simp only [hid, hst]
    split
    · exact ⟨_, rfl⟩
    · split
      · exact ⟨_, rfl⟩
      · exact ⟨_, rfl⟩

/-- A decode that has ended with a result is judged (42_host_correlator R189). -/
theorem validateOp_total {s : State} (htr : s.host.trState = .hRecv) (hstop : s.host.decRun = false)
    (hres : s.host.decRes ≠ .noResult)
    (hread : ∀ a, a < s.host.decLen → (Memory.read s.host.rxbuf a).isSome) : ∃ t, validateOp s = .next t := by
  unfold validateOp
  dsimp only
  rw [if_pos ⟨htr, hstop⟩]
  split
  · exact ⟨_, rfl⟩
  · exact ⟨_, rfl⟩
  · exact validateFrame_total hread
  · next h => exact absurd h hres

/-- A decode of the DEVICE that a terminator has ended is followed by one of R212 to R214 (43_device_responder R211). -/
theorem afterDecode_total {s : State} (htr : s.device.trState = .dRecv) (hstop : s.device.decRun = false)
    (hres : s.device.decRes = .frameOk ∨ s.device.decRes = .framingError)
    (hread : ∀ a, a < s.device.decLen → (Memory.read s.device.rxbuf a).isSome) : ∃ t, afterDecode s = .next t := by
  rcases hres with hres | hres
  · by_cases hlen : s.device.decLen < 2
    · exact ⟨_, by simp only [afterDecode, discardShortOp, htr, hstop, hres, hlen, and_self, if_true]; rfl⟩
    · obtain ⟨id, hid⟩ := Option.isSome_iff_exists.1 (hread 0 (by omega))
      have two : 2 ≤ s.device.decLen := by omega
      exact ⟨_, by
        simp only [afterDecode, dispatchOp, htr, hstop, hres, hlen, two, hid, and_self, if_true, if_false]; rfl⟩
  · exact ⟨_, by simp only [afterDecode, discardOp, htr, hstop, hres, and_self, if_true]; rfl⟩

/-- A byte that ends a decode gives it a result (41_decoder R156). -/
theorem recvOnce_decRes {b : Block} {v : Byte} (hrun : b.decRun = true) (hstop : (b.recvOnce v).decRun = false) :
    (b.recvOnce v).decRes = .frameOk ∨ (b.recvOnce v).decRes = .framingError := by
  obtain ⟨_, _, _, _, run, res, e, ⟨same, -⟩ | ⟨-, ended⟩⟩ := recvOnce_writes b v
  · rw [e] at hstop
    rw [← same] at hrun
    exact absurd (hrun.symm.trans hstop) (by decide)
  · rw [e]
    exact ended ▸ resAtEnd_cases b.decErr

/-! ### A HOST cycle answers -/

/-- HOST.SEND answers, with what follows it (42_host_correlator R183, R185). -/
theorem hostSend_total {s : State} (hb : blockOk s.params.capTxPay s.host) (ready : sendReady s.host)
    (htr : s.host.trState = .hSend) (hrun : s.host.encRun = true) :
    ∃ t, andThen (exec .hostSend s) (hostAfter .hostSend) = .next t := by
  obtain ⟨v, c, once⟩ := sendOnce_total hb ready hrun
  have ⟨_, _, _, _, _, hle, _⟩ := hb
  have enc : encoderOp .host s = _ := encoderOp_of_sendOnce hrun hle once
  have htr' : c.trState = .hSend := (sendOnce_trState once).trans htr
  exact ⟨_, hostSend_of_encoderOp htr hrun enc (by simpa using htr') (by simpa using sendOnce_done once hrun)⟩

/-- HOST.RECV answers every byte (42_host_correlator R186). -/
theorem hostRecv_total {s : State} (v : Byte) (hb : blockOk s.params.capTxPay s.host) (htr : s.host.trState = .hRecv)
    (hrun : s.host.decRun = true) : ∃ t, exec (.hostRecv v) s = .next t := by
  rw [execHostRecv_eq v htr hrun]
  split
  · next hstop =>
    obtain ⟨-, -, -, hread, -⟩ := recvOnce_blockOk v hb hrun
    refine validateOp_total ((recvOnce_trState _ v).trans htr) hstop ?_ hread
    rcases recvOnce_decRes hrun hstop with h | h
    · exact fun h' => DecRes.noConfusion (h.symm.trans h')
    · exact fun h' => DecRes.noConfusion (h.symm.trans h')
  · exact ⟨_, rfl⟩

/-- HOST.TIMEOUT answers at the tick that expires the timer (42_host_correlator R187, 60_exceptions R292). -/
theorem hostTimeout_total {s : State} (hb : blockOk s.params.capTxPay s.host) (htr : s.host.trState = .hRecv)
    (hrun : s.host.decRun = true) (hidle : s.host.idleCnt + 1 = s.params.nIdle) :
    ∃ t, exec .hostTimeout (hostBefore .hostTimeout s) = .next t := by
  rw [execHostTimeout_eq htr hrun hidle]
  obtain ⟨-, -, -, hread, -⟩ := countTick_blockOk s.params.nIdle hb
  refine validateOp_total (s := { s with host := s.host.expire s.params.nIdle })
    ((countTick_trState s.host s.params.nIdle).trans htr) rfl ?_ hread
  rcases resAtEod_cases s.host.decErr with h | h
  · exact fun h' => DecRes.noConfusion (h.symm.trans h')
  · exact fun h' => DecRes.noConfusion (h.symm.trans h')

/-- A HOST cycle that selects nothing answers. -/
theorem hostCycle_of_none {i : HostIn} {s : State} (hrst : i.rst = false) (hrd : readOk s.host i.rd)
    (sel : hostSelect i s = none) : hostCycle i s = .next (hostTick i (clientWrite i s)) := by
  simp [hostCycle, hrst, readFault_none hrd, sel]

/-- A HOST cycle without port write is the operation it selects. -/
theorem hostCycle_of_select {i : HostIn} {s : State} {op : Instr} (hrst : i.rst = false) (hpw : i.pw = none)
    (hrd : readOk s.host i.rd) (sel : hostSelect i s = some op) :
    hostCycle i s = andThen (exec op (hostBefore op s)) (hostAfter op) := by
  simp [hostCycle, hrst, readFault_none hrd, sel, clientWrite_none hpw]

theorem hostCycle_total {i : HostIn} {s : State} (hrst : i.rst = false) (hpw : i.pw = none)
    (hb : blockOk s.params.capTxPay s.host) (hh : hostOk s.params s.host) (ready : sendReady s.host)
    (duties : safeMove s (.host i)) : ∃ t, hostCycle i s = .next t := by
  obtain ⟨hrd, hcall⟩ := duties
  cases sel : hostSelect i s with
  | none => exact ⟨_, hostCycle_of_none hrst hrd sel⟩
  | some op =>
    rw [hostCycle_of_select hrst hpw hrd sel]
    rcases hostSelect_some sel with ⟨htr, id, o, n, hstart, rfl⟩ | ⟨htr, -, rfl⟩ | ⟨htr, -, -, rfl⟩ | ⟨htr, -, rfl⟩ |
      ⟨htr, -, v, hv, rfl⟩ | ⟨htr, -, -, -, hrun, hidle, rfl⟩
    · obtain ⟨hid, hn, -⟩ := hcall htr id o n hstart
      rw [andThen_hostAfter (by simp)]
      exact ⟨_, exec_hostCall htr hid hn⟩
    · rw [andThen_hostAfter (by simp)]
      exact ⟨_, if_pos htr⟩
    · exact hostSend_total hb ready htr (hostOk_sending hh htr).1
    · rw [andThen_hostAfter (by simp)]
      exact ⟨_, if_pos htr⟩
    · rw [andThen_hostAfter (by simp)]
      exact hostRecv_total (s := s.takeFront .host) v hb htr (decRun_of_delivered hv)
    · rw [andThen_hostAfter (by simp)]
      exact hostTimeout_total hb htr hrun hidle

/-! ### A DEVICE cycle answers -/

/-- DEV.SEND answers (43_device_responder R216). -/
theorem devSend_total {s : State} (hb : blockOk Config.devCapTx s.device) (ready : sendReady s.device)
    (htr : s.device.trState = .dSend) (hrun : s.device.encRun = true) : ∃ t, exec .devSend s = .next t := by
  obtain ⟨v, c, once⟩ := sendOnce_total hb ready hrun
  have ⟨_, _, _, _, _, hle, _⟩ := hb
  have enc : encoderOp .device s = _ := encoderOp_of_sendOnce hrun hle once
  exact ⟨_, devSend_of_encoderOp htr hrun enc⟩

/-- DEV.RECV answers every byte (43_device_responder R211). -/
theorem devRecv_total {s : State} (v : Byte) (hb : blockOk Config.devCapTx s.device) (htr : s.device.trState = .dRecv)
    (hrun : s.device.decRun = true) : ∃ t, exec (.devRecv v) s = .next t := by
  rw [execDevRecv_eq v htr hrun]
  split
  · next hstop =>
    obtain ⟨-, -, -, hread, -⟩ := recvOnce_blockOk v hb hrun
    exact afterDecode_total ((recvOnce_trState _ v).trans htr) hstop (recvOnce_decRes hrun hstop) hread
  · exact ⟨_, rfl⟩

/-- A pulse that is given carries a written payload that fits, be it the dispatcher's own or another's. -/
theorem ackPulse_duty {i : DevIn} {s : State} {st : Byte} {n : Nat} (h : SafeInv s) (duties : safeMove s (.device i))
    (htr : s.device.trState = .dDispatch) (hack : ackPulse i s = some (st, n)) :
    n ≤ Config.devCapTx ∧ s.device.txpay.filledTo n := by
  obtain ⟨⟨-, -, -, -, -, -, -, -, hfits⟩, -, -, hwritten⟩ := h
  obtain ⟨-, hport⟩ := duties
  unfold ackPulse at hack
  split at hack
  · cases hack
  · exact ⟨hfits st n hack, hwritten st n hack⟩
  · next hi => cases hack; exact hport htr st n hi

/-- A DEVICE cycle that selects nothing answers. -/
theorem deviceCycle_of_none {i : DevIn} {s : State} (hrst : i.rst = false) (hrd : readOk s.device i.rd)
    (sel : deviceSelect i s = none) : deviceCycle i s = .next (dispatcherWrite i s) := by
  simp [deviceCycle, hrst, readFault_none hrd, sel]

/-- A DEVICE cycle without port write is the operation it selects. -/
theorem deviceCycle_of_select {i : DevIn} {s : State} {op : Instr} (hrst : i.rst = false) (hpw : i.pw = none)
    (hrd : readOk s.device i.rd) (sel : deviceSelect i s = some op) :
    deviceCycle i s = exec op (deviceBefore op s) := by
  simp [deviceCycle, hrst, readFault_none hrd, sel, dispatcherWrite_none hpw]

theorem deviceCycle_total {i : DevIn} {s : State} (hrst : i.rst = false) (hpw : i.pw = none) (h : SafeInv s)
    (duties : safeMove s (.device i)) : ∃ t, deviceCycle i s = .next t := by
  have ⟨⟨_, _, hb, hd, _⟩, _, ready, _⟩ := h
  have ⟨hrd, _⟩ := duties
  cases sel : deviceSelect i s with
  | none => exact ⟨_, deviceCycle_of_none hrst hrd sel⟩
  | some op =>
    rw [deviceCycle_of_select hrst hpw hrd sel]
    rcases deviceSelect_some sel with ⟨htr, v, hv, rfl⟩ | ⟨htr, st, n, hack, rfl⟩ | ⟨htr, -, rfl⟩
    · exact devRecv_total (s := s.takeFront .device) v hb htr (decRun_of_delivered hv)
    · exact ⟨_, exec_devRespond (by exact htr) (ackPulse_duty h duties htr hack).1⟩
    · exact devSend_total hb ready htr (deviceOk_sending hd htr).1

/-! ### Every dutiful move answers and keeps the invariant -/

theorem clientWrite_safeInv {s : State} (i : HostIn) (h : SafeInv s) : SafeInv (clientWrite i s) := by
  obtain ⟨inv, ready, rest⟩ := h
  exact ⟨clientWrite_inv i inv, portWrite_sendReady _ _ _ ready, rest⟩

theorem dispatcherWrite_safeInv {s : State} (i : DevIn) (h : SafeInv s) : SafeInv (dispatcherWrite i s) := by
  obtain ⟨inv, ready, ready', hwritten⟩ := h
  exact ⟨dispatcherWrite_inv i inv, ready, portWrite_sendReady _ _ _ ready',
    fun st n hans => filledTo_portWrite _ _ _ (hwritten st n hans)⟩

/-- The port write of a cycle takes nothing from the duties of the rest of it. -/
theorem clientWrite_safeMove {s : State} {i : HostIn} (duties : safeMove s (.host i)) :
    safeMove (clientWrite i s) (.host { i with pw := none }) := by
  obtain ⟨hrd, hcall⟩ := duties
  refine ⟨by simpa [readOk, clientWrite] using hrd, fun htr id op n hstart => ?_⟩
  obtain ⟨hid, hn, written⟩ := hcall (by simpa [clientWrite] using htr) id op n hstart
  exact ⟨hid, hn, filledTo_portWrite _ _ _ written⟩

theorem dispatcherWrite_safeMove {s : State} {i : DevIn} (duties : safeMove s (.device i)) :
    safeMove (dispatcherWrite i s) (.device { i with pw := none }) := by
  obtain ⟨hrd, hport⟩ := duties
  refine ⟨by simpa [readOk, dispatcherWrite] using hrd, fun htr st n hack => ?_⟩
  obtain ⟨hn, written⟩ := hport (by simpa [dispatcherWrite] using htr) st n hack
  exact ⟨hn, filledTo_portWrite _ _ _ written⟩

/-- A dutiful HOST cycle without reset and port write. -/
theorem hostCycle_safe_noWrite {i : HostIn} {s : State} (hrst : i.rst = false) (hpw : i.pw = none) (h : SafeInv s)
    (duties : safeMove s (.host i)) : ∃ t, hostCycle i s = .next t ∧ SafeInv t := by
  have ⟨inv, ready, rest⟩ := h
  have ⟨hb, hh, _⟩ := inv
  have ⟨_, hcall⟩ := duties
  obtain ⟨t, ht⟩ := hostCycle_total hrst hpw hb hh ready duties
  have inv' := (hostCycle_inv inv ht).1
  obtain ⟨c, _, _, rfl, e⟩ := hostCycle_event hrst hpw ht
  exact ⟨_, ht, inv', hostEvent_sendReady e ready fun htr id op n hstart => (hcall htr id op n hstart).2.2, rest⟩

theorem hostCycle_safe {i : HostIn} {s : State} (h : SafeInv s) (duties : safeMove s (.host i)) :
    ∃ t, hostCycle i s = .next t ∧ SafeInv t := by
  by_cases hrst : i.rst = true
  · have reset := hostCycle_reset hrst s
    obtain ⟨inv, -, rest⟩ := h
    exact ⟨_, reset, (hostCycle_inv inv reset).1, blockReset_sendReady .host, rest⟩
  · rw [hostCycle_portWrite]
    exact hostCycle_safe_noWrite (by simpa using hrst) rfl (clientWrite_safeInv i h) (clientWrite_safeMove duties)

/-- A dutiful DEVICE cycle without reset and port write. -/
theorem deviceCycle_safe_noWrite {i : DevIn} {s : State} (hrst : i.rst = false) (hpw : i.pw = none) (h : SafeInv s)
    (duties : safeMove s (.device i)) : ∃ t, deviceCycle i s = .next t ∧ SafeInv t := by
  have ⟨inv, ready, ready', hwritten⟩ := h
  obtain ⟨t, ht⟩ := deviceCycle_total hrst hpw h duties
  have inv' := (deviceCycle_inv inv ht).1
  obtain ⟨c, _, _, ans, rfl, hans, e⟩ := deviceCycle_event hrst hpw ht
  refine ⟨_, ht, inv', ready,
    deviceEvent_sendReady e ready' fun htr st n hack => (ackPulse_duty h duties htr hack).2, fun st n held => ?_⟩
  change ans = some (st, n) at held
  change c.txpay.filledTo n
  rw [deviceEvent_txpay e]
  rcases hans with rfl | rfl
  · exact hwritten st n held
  · cases held

theorem deviceCycle_safe {i : DevIn} {s : State} (h : SafeInv s) (duties : safeMove s (.device i)) :
    ∃ t, deviceCycle i s = .next t ∧ SafeInv t := by
  by_cases hrst : i.rst = true
  · have reset := deviceCycle_reset hrst s
    obtain ⟨inv, ready, -, -⟩ := h
    exact ⟨_, reset, (deviceCycle_inv inv reset).1, ready, blockReset_sendReady .device, fun _ _ held => nomatch held⟩
  · rw [deviceCycle_portWrite]
    exact deviceCycle_safe_noWrite (by simpa using hrst) rfl (dispatcherWrite_safeInv i h)
      (dispatcherWrite_safeMove duties)

theorem dispatcherMove_safe {s : State} (h : SafeInv s) : ∃ t, dispatcherMove s = .next t ∧ SafeInv t := by
  have ⟨inv, ready, ready', _⟩ := h
  have ⟨_, _, db, dd, _⟩ := inv
  rcases dispatcherMove_cases db dd with e | ⟨op, p, hp, e⟩
  · exact ⟨_, e, h⟩
  · refine ⟨_, e, answered_inv inv op hp _, ready, fun hrun => filledTo_writeList _ 0 (ready' hrun),
      fun st n held => ?_⟩
    cases held
    exact filledTo_writeList_self _ _

theorem setStream_safeInv {s : State} (r : Role) (q : List Byte) (h : SafeInv s) : SafeInv (s.setStream r q) := by
  cases r
  · exact h
  · exact h

theorem startDispatcher_safeInv {s : State} (h : SafeInv s) : SafeInv (startDispatcher s) := by
  obtain ⟨inv, ready, ready', -⟩ := h
  exact ⟨startDispatcher_inv inv, ready, ready', fun _ _ held => nomatch held⟩

theorem runMove_safe {m : Move} {s : State} (h : SafeInv s) (duties : safeMove s m) :
    ∃ t, runMove m s = .next t ∧ SafeInv t := by
  cases m with
  | host i => exact hostCycle_safe (s := { s with turn := .host }) h duties
  | device i => exact deviceCycle_safe (s := { s with turn := .device }) h duties
  | dispatcher => exact dispatcherMove_safe h
  | dispatcherStart => exact ⟨_, rfl, startDispatcher_safeInv h⟩
  | lose r k => exact ⟨_, rfl, setStream_safeInv r _ h⟩
  | alter r k v => exact ⟨_, rfl, setStream_safeInv r _ h⟩

/-- Settles O50: a step is the next move of the script, and every dutiful move answers and keeps the invariant. -/
theorem dutifulSurroundingsNeverStop : Obligations.DutifulSurroundingsNeverStop := by
  intro s h duties
  cases script : s.script with
  | nil => exact ⟨s, by simp only [step, script], h⟩
  | cons m rest =>
    have duty : safeMove s m := duties m (by rw [script]; rfl)
    rw [step_of_script script]
    have duty' : safeMove { s with script := rest } m := by cases m <;> exact duty
    exact runMove_safe (s := { s with script := rest }) h duty'

end Sys2Proof.Machine

/-! PROOF of O9 (20_memory R68, R71, R72). A loss and an alteration replace one direction by what `List.eraseIdx` and
`List.set` leave of it; what they keep and in which order is then a fact about lists. -/

namespace Sys2Proof.Machine

section
variable (s : State) (r : Role) (k : Nat) (v : Byte)

/-! ### What the channel does to its two directions -/

/-- Writing back what a direction holds changes nothing. -/
@[simp] theorem setStream_self : s.setStream r (s.stream r) = s := by cases r <;> rfl

@[simp] theorem loseByte_stream : (loseByte r k s).stream r = (s.stream r).eraseIdx k := setStream_stream s r _

@[simp] theorem loseByte_stream_other : (loseByte r k s).stream (otherRole r) = s.stream (otherRole r) :=
  setStream_stream_other s r _

@[simp] theorem alterByte_stream : (alterByte r k v s).stream r = (s.stream r).set k v := setStream_stream s r _

@[simp] theorem alterByte_stream_other : (alterByte r k v s).stream (otherRole r) = s.stream (otherRole r) :=
  setStream_stream_other s r _

end

/-- A full channel drops the byte (20_memory R71, log 8). -/
theorem emit_of_full {s : State} {r : Role} (v : Byte) (full : s.params.chDepth ≤ (s.stream r).length) :
    s.emit r v = s := if_neg (Nat.not_lt.2 full)

theorem loseByte_of_length_le {s : State} {r : Role} {k : Nat} (past : (s.stream r).length ≤ k) :
    loseByte r k s = s := by
  rw [loseByte, List.eraseIdx_of_length_le past, setStream_self]

theorem alterByte_of_length_le {s : State} {r : Role} {k : Nat} (v : Byte) (past : (s.stream r).length ≤ k) :
    alterByte r k v s = s := by
  rw [alterByte, List.set_eq_of_length_le past, setStream_self]

/-! ### The channel keeps order -/

/-- A loss at a place that holds a byte (20_memory R72). -/
theorem loseByte_stream_of_lt {s : State} {r : Role} {k : Nat} (held : k < (s.stream r).length) :
    ((loseByte r k s).stream r).length + 1 = (s.stream r).length ∧
      (loseByte r k s).stream r = (s.stream r).take k ++ (s.stream r).drop (k + 1) := by
  rw [loseByte_stream]
  exact ⟨List.length_eraseIdx_add_one held, List.eraseIdx_eq_take_drop_succ _ k⟩

/-- An alteration reaches no place but `k` (20_memory R72). -/
theorem alterByte_stream_ne (s : State) (r : Role) {k : Nat} (v : Byte) {j : Nat} (ne : j ≠ k) :
    ((alterByte r k v s).stream r)[j]? = (s.stream r)[j]? := by
  rw [alterByte_stream, List.getElem?_set_ne ne.symm]

theorem alterByte_stream_same {s : State} {r : Role} {k : Nat} (v : Byte) (held : k < (s.stream r).length) :
    ((alterByte r k v s).stream r)[k]? = some v := by
  rw [alterByte_stream, List.getElem?_set_self held]

/-- Settles O9: acceptance splits on whether there is room, loss and alteration on whether the place holds a byte; a
step is the next move of the script. -/
theorem channelKeepsOrder : Obligations.ChannelKeepsOrder := by
  intro s r v k
  have lostSublist : ((loseByte r k s).stream r).Sublist (s.stream r) := by
    rw [loseByte_stream]
    exact List.eraseIdx_sublist _ k
  have alteredLength : ((alterByte r k v s).stream r).length = (s.stream r).length := by
    rw [alterByte_stream, List.length_set]
  have atHeld (held : k < (s.stream r).length) :
      ((loseByte r k s).stream r).length + 1 = (s.stream r).length ∧
        (loseByte r k s).stream r = (s.stream r).take k ++ (s.stream r).drop (k + 1) ∧
        ((alterByte r k v s).stream r)[k]? = some v :=
    have ⟨oneLess, around⟩ := loseByte_stream_of_lt held
    ⟨oneLess, around, alterByte_stream_same v held⟩
  have pastEnd (past : (s.stream r).length ≤ k) : loseByte r k s = s ∧ alterByte r k v s = s :=
    ⟨loseByte_of_length_le past, alterByte_of_length_le v past⟩
  exact ⟨emit_of_room v, emit_of_full v, lostSublist, alteredLength, fun _ => alterByte_stream_ne s r v, atHeld, pastEnd,
    fun _ script => step_of_script script, fun _ script => step_of_script script,
    loseByte_stream_other s r k, alterByte_stream_other s r k v⟩

end Sys2Proof.Machine

/-! PROOF of O1, O2, O3 and O56 (30_encoding R106, R107). Stream words and opcode bytes are each cut by one table whose
rows do not overlap; what is said of a row's operation and its word is said here once, per table, and both directions of
decode and encode are read off it. -/

namespace Sys2Proof

/-! ### The 9-bit word is the escape flag and the byte -/

theorem streamWord_eq_cons (esc : Bool) (b : Byte) : streamWord esc b = BitVec.cons esc b := rfl

theorem streamWord_getLsbD (esc : Bool) (b : Byte) : (streamWord esc b).getLsbD 8 = esc := by
  rw [streamWord_eq_cons, BitVec.getLsbD_cons, if_pos rfl]

theorem streamWord_setWidth (esc : Bool) (b : Byte) : (streamWord esc b).setWidth 8 = b := by
  rw [streamWord_eq_cons, BitVec.setWidth_cons]

/-- The two parts of a word are all of it, so every word is some delivered byte's. -/
theorem streamWord_parts (w : BitVec 9) : streamWord (w.getLsbD 8) (w.setWidth 8) = w := by
  rw [streamWord_eq_cons]
  exact BitVec.cons_msb_setWidth w

theorem decode_streamWord (esc : Bool) (b : Byte) : decode (.stream (streamWord esc b)) = .ok (decodeStream esc b) := by
  rw [decode, streamWord_getLsbD, streamWord_setWidth]

/-! ### The rows of the decoder's table (41_decoder R152) -/

theorem decodeStream_badesc {b : Byte} (notEsc : b ≠ Config.esc) (notEnd : b ≠ Config.endMark) :
    decodeStream true b = .decBadesc b := by
  rw [decodeStream, if_pos rfl, if_neg notEnd, if_neg notEsc]

theorem decodeStream_data {b : Byte} (notEsc : b ≠ Config.esc) : decodeStream false b = .decData b := by
  rw [decodeStream, if_neg Bool.false_ne_true, if_neg notEsc]

/-- Each of the five rows admits exactly the bytes that reach it. -/
theorem decodeStream_selects (esc : Bool) (b : Byte) :
    (decodeStream esc b).wellFormed = true ∧ (decodeStream esc b).group = .streamDecoder ∧
      encode (decodeStream esc b) = some (.stream (streamWord esc b)) := by
  cases esc with
  | true =>
    by_cases isEnd : b = Config.endMark
    · subst isEnd; exact ⟨rfl, rfl, rfl⟩
    by_cases isEsc : b = Config.esc
    · subst isEsc; exact ⟨rfl, rfl, rfl⟩
    rw [decodeStream_badesc isEsc isEnd]
    exact ⟨decide_eq_true ⟨isEsc, isEnd⟩, rfl, rfl⟩
  | false =>
    by_cases isEsc : b = Config.esc
    · subst isEsc; exact ⟨rfl, rfl, rfl⟩
    rw [decodeStream_data isEsc]
    exact ⟨decide_eq_true isEsc, rfl, rfl⟩

/-! ### The rows of the encoder's table (40_encoder R138) -/

theorem decode_emit_literal {b : Byte} (notEsc : b ≠ Config.esc) :
    decode (.emit .data false b) = .ok (.encLit b) := by
  rw [decode, decodeEmit, if_neg Bool.false_ne_true, if_neg notEsc]

/-! ### The opcode bytes (30_encoding R98, 45_dispatcher_interface R249) -/

/-- A byte that has the number of a listed opcode is that opcode. -/
theorem mem_listedOpcodes_of_toNat {v : Byte} (number : v.toNat ∈ listedOpcodes.map BitVec.toNat) :
    v ∈ listedOpcodes := (List.mem_map_of_injective BitVec.toNat_injective).1 number

theorem decodeOpcode_unlisted {v : Byte} (unlisted : v ∉ listedOpcodes) : decodeOpcode v = .unknown v := by
  unfold decodeOpcode
  split
  case h_17 => rfl
  all_goals
    next number => exact absurd (mem_listedOpcodes_of_toNat (number ▸ by decide)) unlisted

/-- A listed opcode has a row without operands, any other byte is UNKNOWN's operand. -/
theorem decodeOpcode_selects (v : Byte) :
    (decodeOpcode v).wellFormed = true ∧ (decodeOpcode v).group = .frameOpcode ∧
      encode (decodeOpcode v) = some (.opcode v) := by
  by_cases listed : v ∈ listedOpcodes
  · fin_cases listed <;> exact ⟨rfl, rfl, rfl⟩
  · rw [decodeOpcode_unlisted listed]
    exact ⟨decide_eq_true listed, rfl, rfl⟩

/-! ### Decode of encode -/

/-- Exactly the events have no encoding (30_encoding R106). -/
theorem encode_eq_none_iff (i : Instr) : encode i = none ↔ i.group = .event := by
  cases i with
  | decBadesc b => exact Laws.EncodeGroup.decBadesc b
  | decData b => exact Laws.EncodeGroup.decData b
  | encLit b => exact Laws.EncodeGroup.encLit b
  | unknown v => exact Laws.EncodeGroup.unknown v
  | hostCall id op plen => exact Laws.EncodeGroup.hostCall id op plen
  | hostRecv b => exact Laws.EncodeGroup.hostRecv b
  | devRecv b => exact Laws.EncodeGroup.devRecv b
  | devRespond status plen => exact Laws.EncodeGroup.devRespond status plen
  | _ => decide

/-- The four rows with an operand in their pattern give it back by the table's own tests; every other pattern is one
fixed word. -/
theorem decode_of_encode {i : Instr} {f : Fetch} (wf : i.wellFormed = true) (enc : encode i = some f) :
    decode f = .ok i := by
  cases i with
  | decBadesc b =>
    obtain ⟨notEsc, notEnd⟩ := of_decide_eq_true wf
    cases enc
    rw [decode_streamWord, decodeStream_badesc notEsc notEnd]
  | decData b =>
    cases enc
    rw [decode_streamWord, decodeStream_data (of_decide_eq_true wf)]
  | encLit b =>
    cases enc
    exact decode_emit_literal (of_decide_eq_true wf)
  | unknown v =>
    cases enc
    rw [decode, decodeOpcode_unlisted (of_decide_eq_true wf)]
  | _ => cases enc <;> rfl

/-- Settles O2: a row has an encoding unless it is an event, and well-formedness is what keeps an operand in its row. -/
theorem decodeOfEncode : Obligations.DecodeOfEncode := fun i wf =>
  ⟨fun notEvent => Option.isSome_iff_ne_none.2 (mt (encode_eq_none_iff i).1 notEvent), fun _ => decode_of_encode wf⟩

/-! ### Encode of decode -/

/-- Settles O3: a word is the escape flag and the byte that select its row, an opcode byte selects its own. -/
theorem encodeOfDecode : Obligations.EncodeOfDecode := by
  refine ⟨fun w => ⟨_, rfl, ?_⟩, fun v => ⟨_, rfl, decodeOpcode_selects v⟩⟩
  have selects := decodeStream_selects (w.getLsbD 8) (w.setWidth 8)
  rwa [streamWord_parts] at selects

/-! ### Words of the table -/

theorem decodeTableWord_streamWord (esc : Bool) (b : Byte) :
    decodeTableWord 16 (streamWord esc b).toNat = some (decodeStream esc b) := by
  rw [decodeTableWord, tableFetch, if_pos rfl, if_pos (streamWord esc b).isLt, BitVec.ofNat_toNat, BitVec.setWidth_eq]
  simp only [decode_streamWord, Except.toOption]

/-- Every 8-bit word but the two that stand for encoder rows is an opcode byte (log 5). -/
theorem decodeTableWord_opcode {v : Byte} (notEsc : v ≠ Config.esc) (notEnd : v ≠ Config.endMark) :
    decodeTableWord 8 v.toNat = some (decodeOpcode v) := by
  have fits : ¬ 256 ≤ v.toNat := Nat.not_le.2 v.isLt
  have notFF : v.toNat ≠ 0xFF := fun number => notEsc (BitVec.eq_of_toNat_eq number)
  have notAF : v.toNat ≠ 0xAF := fun number => notEnd (BitVec.eq_of_toNat_eq number)
  simp [decodeTableWord, tableFetch, fits, notFF, notAF, decode, Except.toOption]

/-- Settles O1: each word is written out as its escape flag and byte, or as its opcode byte. -/
theorem writtenWordsDecode : Obligations.WrittenWordsDecode :=
  ⟨decodeTableWord_streamWord true Config.endMark, decodeTableWord_streamWord true Config.esc,
    decodeTableWord_streamWord true 0x01, decodeTableWord_streamWord false Config.esc,
    decodeTableWord_streamWord false 0xAF,
    decodeTableWord_opcode (v := 0x00) (by decide) (by decide),
    decodeTableWord_opcode (v := 0x0B) (by decide) (by decide),
    decodeTableWord_opcode (v := 0x15) (by decide) (by decide),
    decodeTableWord_opcode (v := 0x33) (by decide) (by decide),
    decodeTableWord_opcode (v := 0x7F) (by decide) (by decide)⟩

end Sys2Proof

namespace Sys2Proof.Machine

/-! ### The length of an encoded frame -/

theorem encodeFrame_cons_esc (f : List Byte) :
    encodeFrame (Config.esc :: f) = Config.esc :: Config.esc :: encodeFrame f := if_pos rfl

theorem encodeFrame_cons_literal {b : Byte} (notEsc : b ≠ Config.esc) (f : List Byte) :
    encodeFrame (b :: f) = b :: encodeFrame f := if_neg notEsc

/-- 30_encoding R107: one byte per frame byte, one more for each `ESC`, two for the terminator. -/
theorem encodeFrame_length (f : List Byte) : (encodeFrame f).length = f.length + f.count Config.esc + 2 := by
  induction f with
  | nil => rfl
  | cons b f ih =>
    by_cases isEsc : b = Config.esc
    · subst isEsc
      rw [encodeFrame_cons_esc, List.count_cons_self]
      simp only [List.length_cons]
      omega
    · rw [encodeFrame_cons_literal isEsc, List.count_cons_of_ne isEsc]
      simp only [List.length_cons]
      omega

/-- Behind a first byte that is not `ESC`, every `ESC` is in the rest. -/
theorem count_esc_le_of_head {id : Byte} {g : List Byte} (notEsc : id ≠ Config.esc) :
    (id :: g).count Config.esc ≤ g.length := by
  rw [List.count_cons_of_ne notEsc]
  exact List.count_le_length

/-- Settles O56: the bounds are those of the number of `ESC` bytes in a frame, between none and all of them. -/
theorem encodedLength : Obligations.EncodedLength := by
  refine ⟨rfl, fun f => ?_⟩
  have lengthEq := encodeFrame_length f
  have countLe : f.count Config.esc ≤ f.length := List.count_le_length
  refine ⟨lengthEq, fun _ => by omega, by omega, ?_, fun allEsc => ?_⟩
  · rintro id g rfl notEsc
    have countTail : (id :: g).count Config.esc ≤ g.length := count_esc_le_of_head notEsc
    rw [List.length_cons] at lengthEq ⊢
    omega
  · have countEq : f.count Config.esc = f.length := List.count_eq_length.2 fun b hb => (allEsc b hb).symm
    omega

end Sys2Proof.Machine

/-! PROOF of O4 to O8 (40_encoder R131 to R138). The table reads one fetch off the registers: the operation it decodes to
is the one that runs and the one whose byte `tx_data` shows, and no operation completes that it does not select. -/

namespace Sys2Proof.Machine

/-! ### What selects the encoder operation, by the rows of 40_encoder R138 -/

theorem encoderFetch_last {b : Block} (hph : b.encPh = .data) (hi : b.encIdx = b.encN) :
    b.encoderFetch = some (.emit .data true 0) := by
  simp only [Block.encoderFetch, hph, hi, if_true]

theorem encoderFetch_byte {b : Block} {v : Byte} (hph : b.encPh = .data) (hi : b.encIdx ≠ b.encN)
    (hv : b.frameByte b.encIdx = some v) : b.encoderFetch = some (.emit .data false v) := by
  simp only [Block.encoderFetch, hph, hi, hv, if_false, Option.map_some]

theorem encoderFetch_of_ne_data {b : Block} (hph : b.encPh ≠ .data) :
    b.encoderFetch = some (.emit b.encPh (decide (b.encIdx = b.encN)) 0) := by
  unfold Block.encoderFetch
  split
  · next h => exact absurd h hph
  · rfl

/-- The table selects `i` for the block (40_encoder R138). -/
def Block.encoderSelects (b : Block) (i : Instr) : Prop := ∃ f, b.encoderFetch = some f ∧ decode f = .ok i

theorem encoderSelects_unique {b : Block} {i j : Instr} (hi : b.encoderSelects i) (hj : b.encoderSelects j) :
    i = j := by
  obtain ⟨f, fetched, decoded⟩ := hi
  obtain ⟨g, fetched', decoded'⟩ := hj
  cases fetched.symm.trans fetched'
  cases decoded.symm.trans decoded'
  rfl

theorem selects_encLit {b : Block} {v : Byte} (hph : b.encPh = .data) (hi : b.encIdx ≠ b.encN)
    (hv : b.frameByte b.encIdx = some v) (notEsc : v ≠ Config.esc) : b.encoderSelects (.encLit v) :=
  ⟨_, encoderFetch_byte hph hi hv, decode_emit_literal notEsc⟩

theorem selects_encStuff1 {b : Block} (hph : b.encPh = .data) (hi : b.encIdx ≠ b.encN)
    (hv : b.frameByte b.encIdx = some Config.esc) : b.encoderSelects .encStuff1 :=
  ⟨_, encoderFetch_byte hph hi hv, rfl⟩

theorem selects_encTerm1 {b : Block} (hph : b.encPh = .data) (hi : b.encIdx = b.encN) :
    b.encoderSelects .encTerm1 :=
  ⟨_, encoderFetch_last hph hi, rfl⟩

theorem selects_encStuff2 {b : Block} (hph : b.encPh = .stuff2) : b.encoderSelects .encStuff2 :=
  ⟨_, encoderFetch_of_ne_data (by simp [hph]), by rw [hph]; rfl⟩

theorem selects_encTerm2 {b : Block} (hph : b.encPh = .term2) : b.encoderSelects .encTerm2 :=
  ⟨_, encoderFetch_of_ne_data (by simp [hph]), by rw [hph]; rfl⟩

/-! ### The selected operation runs, and no other completes -/

/-- A bare encoder operation acts on the block whose turn it is (log 3). -/
theorem exec_streamEncoder {i : Instr} (hi : i.group = .streamEncoder) (s : State) :
    exec i s = encoderRun s.turn i s := by
  cases i with
  | encLit v => rfl
  | encStuff1 => rfl
  | encStuff2 => rfl
  | encTerm1 => rfl
  | encTerm2 => rfl
  | _ => cases hi

theorem group_of_emittedByte {i : Instr} {v : Byte} (h : emittedByte i = some v) : i.group = .streamEncoder := by
  cases i with
  | encLit v => rfl
  | encStuff1 => rfl
  | encStuff2 => rfl
  | encTerm1 => rfl
  | encTerm2 => rfl
  | _ => cases h

theorem encoderOp_of_selects {r : Role} {s : State} {i : Instr} (h : (s.block r).encoderSelects i) :
    encoderOp r s = encoderRun r i s := by
  obtain ⟨f, fetched, decoded⟩ := h
  simp only [encoderOp, fetched, decoded]

theorem txData_of_selects {b : Block} {i : Instr} (hrun : b.encRun = true) (h : b.encoderSelects i) :
    b.txData = emittedByte i := by
  obtain ⟨f, fetched, decoded⟩ := h
  simp only [Block.txData, hrun, fetched, decoded, if_true]

/-- A row of the table: its operation runs and its byte is on the wire. -/
theorem row_of_selects {s : State} {b : Block} {i : Instr} {v : Byte} (hb : s.block s.turn = b) (hrun : b.encRun = true)
    (h : b.encoderSelects i) (emits : emittedByte i = some v) :
    encoderOp s.turn s = exec i s ∧ b.txData = some v := by
  subst hb
  exact ⟨(encoderOp_of_selects h).trans (exec_streamEncoder (group_of_emittedByte emits) s).symm,
    (txData_of_selects hrun h).trans emits⟩

/-- An encoder operation that completes is the one that the table selects. -/
theorem selects_of_encoderRun_next {r : Role} {i : Instr} {s t : State} (hi : i.group = .streamEncoder)
    (h : encoderRun r i s = .next t) : (s.block r).encoderSelects i := by
  cases i with
  | encLit v =>
    obtain ⟨-, hph, hlt, hv, notEsc, -⟩ := encLitOn_next h
    exact selects_encLit hph (Nat.ne_of_lt hlt) hv notEsc
  | encStuff1 =>
    obtain ⟨-, hph, hlt, hv, -⟩ := encStuff1On_next h
    exact selects_encStuff1 hph (Nat.ne_of_lt hlt) hv
  | encStuff2 =>
    obtain ⟨-, hph, -⟩ := encStuff2On_next h
    exact selects_encStuff2 hph
  | encTerm1 =>
    obtain ⟨-, hph, hlast, -⟩ := encTerm1On_next h
    exact selects_encTerm1 hph hlast
  | encTerm2 =>
    obtain ⟨-, hph, -⟩ := encTerm2On_next h
    exact selects_encTerm2 hph
  | _ => cases hi

/-- What `encoderOp` completes is one of the five operations. -/
theorem exec_of_encoderOp_next {s t : State} (h : encoderOp s.turn s = .next t) :
    ∃ i, i.group = .streamEncoder ∧ exec i s = .next t := by
  rcases encoderOp_next h with ⟨v, h⟩ | h | h | h | h
  · exact ⟨.encLit v, rfl, h⟩
  · exact ⟨.encStuff1, rfl, h⟩
  · exact ⟨.encStuff2, rfl, h⟩
  · exact ⟨.encTerm1, rfl, h⟩
  · exact ⟨.encTerm2, rfl, h⟩

/-- Settles O4: the rows one by one; two operations that complete are both selected by the one fetch; a running encoder
within its frame has a byte to send. -/
theorem encoderSelectionIsTheTable : Obligations.EncoderSelectionIsTheTable := by
  refine ⟨fun s b hb hrun => ?_, fun s t t' i j hi hj ht ht' => ?_, fun s cap ok ready hrun => ?_⟩
  · exact ⟨fun hph hi v hv notEsc => row_of_selects hb hrun (selects_encLit hph hi hv notEsc) rfl,
      fun hph hi hv => row_of_selects hb hrun (selects_encStuff1 hph hi hv) rfl,
      fun hph hi => row_of_selects hb hrun (selects_encTerm1 hph hi) rfl,
      fun hph => row_of_selects hb hrun (selects_encStuff2 hph) rfl,
      fun hph => row_of_selects hb hrun (selects_encTerm2 hph) rfl⟩
  · rw [exec_streamEncoder hi] at ht
    rw [exec_streamEncoder hj] at ht'
    exact encoderSelects_unique (selects_of_encoderRun_next hi ht) (selects_of_encoderRun_next hj ht')
  · obtain ⟨v, c, once⟩ := sendOnce_total ok ready hrun
    obtain ⟨-, -, -, -, -, inside, -, running, -⟩ := ok
    obtain ⟨i, hi, ht⟩ := exec_of_encoderOp_next (encoderOp_of_sendOnce hrun inside once)
    exact ⟨(running hrun).2, i, _, hi, ht⟩

/-! ### The operations one by one (40_encoder R131 to R136) -/

/-- Settles O5. -/
theorem encStartBeginsAnEncode : Obligations.EncStartBeginsAnEncode := by
  rintro s b rfl stopped
  have start : exec .encStart s = .next (s.setBlock s.turn (s.block s.turn).encStart) := if_pos stopped
  refine ⟨start, fun t ht chFail rst => ?_⟩
  cases start.symm.trans ht
  simp [Block.txValid]

/-- Settles O6. -/
theorem encLitSendsTheFrameByte : Obligations.EncLitSendsTheFrameByte := by
  rintro s b v rfl hrun hph hlt hv notEsc
  exact if_pos ⟨hrun, hph, hlt, hv, notEsc⟩

/-- Settles O7. -/
theorem encStuffDoublesTheEscape : Obligations.EncStuffDoublesTheEscape := by
  rintro s b rfl hrun
  exact ⟨fun hph hlt hv => if_pos ⟨hrun, hph, hlt, hv⟩, fun hph => if_pos ⟨hrun, hph⟩⟩

/-- Settles O8. -/
theorem encTermSendsTheTerminator : Obligations.EncTermSendsTheTerminator := by
  rintro s b rfl hrun
  exact ⟨fun hph hlast => if_pos ⟨hrun, hph, hlast⟩, fun hph => if_pos ⟨hrun, hph⟩⟩

end Sys2Proof.Machine

/-! PROOF of O51 (log 4). A cycle runs its operation in the state of the transport that selects it, and there the
invariant makes the operation answer, or stop for a reason of the surroundings: an unwritten byte, an id or a length
(93 U8, U9, U11). -/

namespace Sys2Proof.Machine

/-! ### Outcomes of operations that were selected -/

/-- The outcome is not that of an operation which the spec does not select, or which has no meaning. -/
def properlyAsked (o : Out) : Prop :=
  ∀ name, o ≠ .refused (.notSelected name) ∧ o ≠ .refused (.notModelled name)

theorem properlyAsked_next (t : State) : properlyAsked (.next t) := by simp [properlyAsked]

theorem properlyAsked_fault (f : Fault) : properlyAsked (.fault f) := by simp [properlyAsked]

theorem properlyAsked_idSentinel : properlyAsked (.refused .idSentinel) := by simp [properlyAsked]

theorem properlyAsked_payloadTooLong : properlyAsked (.refused .payloadTooLong) := by simp [properlyAsked]

theorem properlyAsked_of_next {o : Out} (h : ∃ t, o = .next t) : properlyAsked o := by
  obtain ⟨t, rfl⟩ := h
  exact properlyAsked_next t

/-- A call in H_IDLE may be refused for its id or its length, which are the client's (93 U8, U9). -/
theorem hostCall_properlyAsked {s : State} (id op : Byte) (n : Nat) (htr : s.host.trState = .hIdle) :
    properlyAsked (exec (.hostCall id op n) s) := by
  change properlyAsked (execHostCall id op n s)
  rw [execHostCall, if_neg (not_not.2 htr)]
  split
  · exact properlyAsked_idSentinel
  · split
    · exact properlyAsked_payloadTooLong
    · exact properlyAsked_next _

/-- A response in D_DISPATCH may be refused for its length, which is the dispatcher's (93 U9). -/
theorem devRespond_properlyAsked {s : State} (st : Byte) (n : Nat) (htr : s.device.trState = .dDispatch) :
    properlyAsked (exec (.devRespond st n) s) := by
  change properlyAsked (execDevRespond st n s)
  rw [execDevRespond, if_pos htr]
  split
  · exact properlyAsked_payloadTooLong
  · exact properlyAsked_next _

/-! ### A running encoder answers, or reads an unwritten byte -/

/-- Before DONE the only thing that can be missing is a byte of the frame (40_encoder R138). -/
theorem sendOnce_none {b : Block} (h : b.sendOnce = none) (notDone : b.encPh ≠ .done) :
    b.encPh = .data ∧ b.encIdx ≠ b.encN ∧ b.frameByte b.encIdx = none := by
  cases hph : b.encPh with
  | data =>
    have hi : b.encIdx ≠ b.encN := fun hi => nomatch (sendOnce_last hph hi).symm.trans h
    refine ⟨rfl, hi, Option.eq_none_iff_forall_ne_some.2 fun v hv => ?_⟩
    by_cases hesc : v = Config.esc
    · exact nomatch (sendOnce_esc hph hi (hesc ▸ hv)).symm.trans h
    · exact nomatch (sendOnce_literal hph hi hv hesc).symm.trans h
  | stuff2 => exact nomatch (sendOnce_stuff2 hph).symm.trans h
  | term2 => exact nomatch (sendOnce_term2 hph).symm.trans h
  | done => exact absurd hph notDone

theorem encoderOp_fault_or_sendOnce {cap : Nat} {r : Role} {s : State} (hb : blockOk cap (s.block r))
    (hrun : (s.block r).encRun = true) :
    encoderOp r s = .fault .unspecifiedByte ∨
    ∃ v c, (s.block r).sendOnce = some (v, c) ∧ encoderOp r s = .next ((s.setBlock r c).emit r v) := by
  obtain ⟨-, -, -, -, -, inside, -, running, -⟩ := hb
  cases once : (s.block r).sendOnce with
  | none =>
    obtain ⟨hph, hi, hv⟩ := sendOnce_none once (running hrun).2
    exact .inl (encoderOp_unwritten hph hi hv)
  | some x => exact .inr ⟨x.1, x.2, rfl, encoderOp_of_sendOnce hrun inside once⟩

/-- HOST.SEND with what follows it (42_host_correlator R183, R185). -/
theorem hostSend_properlyAsked {s : State} (hb : blockOk s.params.capTxPay s.host) (htr : s.host.trState = .hSend)
    (hrun : s.host.encRun = true) : properlyAsked (andThen (exec .hostSend s) (hostAfter .hostSend)) := by
  rcases encoderOp_fault_or_sendOnce (r := .host) hb hrun with fault | ⟨v, c, once, enc⟩
  · have send : exec .hostSend s = _ := if_pos ⟨htr, hrun⟩
    rw [send, fault]
    exact properlyAsked_fault _
  · have htr' : c.trState = .hSend := (sendOnce_trState once).trans htr
    rw [hostSend_of_encoderOp htr hrun enc (by simpa using htr') (by simpa using sendOnce_done once hrun)]
    exact properlyAsked_next _

/-- DEV.SEND (43_device_responder R216). -/
theorem devSend_properlyAsked {s : State} (hb : blockOk Config.devCapTx s.device) (htr : s.device.trState = .dSend)
    (hrun : s.device.encRun = true) : properlyAsked (exec .devSend s) := by
  rcases encoderOp_fault_or_sendOnce (r := .device) hb hrun with fault | ⟨v, c, -, enc⟩
  · have send : exec .devSend s = _ := if_pos ⟨htr, hrun⟩
    rw [send, fault]
    exact properlyAsked_fault _
  · rw [devSend_of_encoderOp htr hrun enc]
    exact properlyAsked_next _

/-! ### A cycle is properly asked if its operation is -/

theorem hostCycle_properlyAsked_of_op {i : HostIn} {s : State} (hpw : i.pw = none)
    (ops : ∀ op, hostSelect i s = some op → properlyAsked (andThen (exec op (hostBefore op s)) (hostAfter op))) :
    properlyAsked (hostCycle i s) := by
  unfold hostCycle
  split
  · exact properlyAsked_next _
  · split
    · exact properlyAsked_fault _
    · split
      · exact properlyAsked_next _
      · next op sel => rw [clientWrite_none hpw]; exact ops op sel

theorem deviceCycle_properlyAsked_of_op {i : DevIn} {s : State} (hpw : i.pw = none)
    (ops : ∀ op, deviceSelect i s = some op → properlyAsked (exec op (deviceBefore op s))) :
    properlyAsked (deviceCycle i s) := by
  unfold deviceCycle
  split
  · exact properlyAsked_next _
  · split
    · exact properlyAsked_fault _
    · split
      · exact properlyAsked_next _
      · next op sel => rw [dispatcherWrite_none hpw]; exact ops op sel

theorem hostCycle_properlyAsked_noWrite {i : HostIn} {s : State} (hpw : i.pw = none) (h : Inv s) :
    properlyAsked (hostCycle i s) := by
  obtain ⟨hb, hh, -⟩ := h
  refine hostCycle_properlyAsked_of_op hpw fun op sel => ?_
  rcases hostSelect_some sel with ⟨htr, id, o, n, -, rfl⟩ | ⟨htr, -, rfl⟩ | ⟨htr, -, -, rfl⟩ | ⟨htr, -, rfl⟩ |
    ⟨htr, -, v, hv, rfl⟩ | ⟨htr, -, -, -, hrun, hidle, rfl⟩
  · rw [andThen_hostAfter (by simp)]
    exact hostCall_properlyAsked id o n htr
  · rw [andThen_hostAfter (by simp)]
    exact properlyAsked_of_next ⟨_, if_pos htr⟩
  · exact hostSend_properlyAsked hb htr (hostOk_sending hh htr).1
  · rw [andThen_hostAfter (by simp)]
    exact properlyAsked_of_next ⟨_, if_pos htr⟩
  · rw [andThen_hostAfter (by simp)]
    exact properlyAsked_of_next (hostRecv_total (s := s.takeFront .host) v hb htr (decRun_of_delivered hv))
  · rw [andThen_hostAfter (by simp)]
    exact properlyAsked_of_next (hostTimeout_total hb htr hrun hidle)

theorem deviceCycle_properlyAsked_noWrite {i : DevIn} {s : State} (hpw : i.pw = none) (h : Inv s) :
    properlyAsked (deviceCycle i s) := by
  obtain ⟨-, -, hb, hd, -⟩ := h
  refine deviceCycle_properlyAsked_of_op hpw fun op sel => ?_
  rcases deviceSelect_some sel with ⟨htr, v, hv, rfl⟩ | ⟨htr, st, n, -, rfl⟩ | ⟨htr, -, rfl⟩
  · exact properlyAsked_of_next (devRecv_total (s := s.takeFront .device) v hb htr (decRun_of_delivered hv))
  · exact devRespond_properlyAsked st n htr
  · exact devSend_properlyAsked hb htr (deviceOk_sending hd htr).1

/-! ### Every move -/

theorem hostCycle_properlyAsked {s : State} (i : HostIn) (h : Inv s) : properlyAsked (hostCycle i s) := by
  rw [hostCycle_portWrite]
  exact hostCycle_properlyAsked_noWrite rfl (clientWrite_inv i h)

theorem deviceCycle_properlyAsked {s : State} (i : DevIn) (h : Inv s) : properlyAsked (deviceCycle i s) := by
  rw [deviceCycle_portWrite]
  exact deviceCycle_properlyAsked_noWrite rfl (dispatcherWrite_inv i h)

theorem dispatcherMove_properlyAsked {s : State} (h : Inv s) : properlyAsked (dispatcherMove s) := by
  obtain ⟨-, -, db, dd, -⟩ := h
  rcases dispatcherMove_cases db dd with e | ⟨_, _, -, e⟩
  · exact properlyAsked_of_next ⟨_, e⟩
  · exact properlyAsked_of_next ⟨_, e⟩

theorem runMove_properlyAsked {s : State} (m : Move) (h : Inv s) : properlyAsked (runMove m s) := by
  cases m with
  | host i => exact hostCycle_properlyAsked (s := { s with turn := .host }) i h
  | device i => exact deviceCycle_properlyAsked (s := { s with turn := .device }) i h
  | dispatcher => exact dispatcherMove_properlyAsked h
  | dispatcherStart => exact properlyAsked_next _
  | lose r k => exact properlyAsked_next _
  | alter r k v => exact properlyAsked_next _

/-- Settles O51: a step is the next move of the script. -/
theorem stepsAskOnlyForSelectedOperations : Obligations.StepsAskOnlyForSelectedOperations := by
  intro s h
  change properlyAsked (step s)
  cases script : s.script with
  | nil => exact properlyAsked_of_next ⟨s, by simp only [step, script]⟩
  | cons m rest =>
    rw [step_of_script script]
    exact runMove_properlyAsked (s := { s with script := rest }) m h

end Sys2Proof.Machine

/-! PROOF of O57 (40_encoder R139, 43_device_responder R215, R216). The send loop again, now with cycles in which the
channel accepts nothing: such a cycle changes nothing, nor does any after the last byte, when the block receives and is
offered none. -/

namespace Sys2Proof.Machine

/-! ### Cycles in which the channel may accept and offers nothing -/

/-- A cycle of a block whose channel accepts a byte if `c`. -/
def readyCycle (c : Bool) : Role → Move
  | .host => .host { txReady := c }
  | .device => .device { txReady := c }

theorem readyCycle_true (r : Role) : readyCycle true r = acceptCycle r := by
  cases r <;> rfl

@[simp] theorem inCycle_inCycle (s : State) (r r' : Role) (l m : List Move) :
    (s.inCycle r' l).inCycle r m = s.inCycle r m := rfl

/-- Nothing is delivered that the channel does not offer (10_state R41). -/
theorem delivered_unoffered (s : State) (r : Role) (chFail rst : Bool) : delivered s r false chFail rst = none :=
  if_neg (by simp)

theorem readOk_none (b : Block) : readOk b none := fun _ h => nomatch h

/-- A block that sends waits while the channel does not accept (10_state R40); one that receives waits for a byte. -/
theorem step_idle {r : Role} {c : Bool} {s : State} {rest : List Move} (hs : s.script = readyCycle c r :: rest)
    (h : (s.block r).trState = sendingIn r ∧ c = false ∨ (s.block r).trState = receivingIn r) :
    step s = .next (s.inCycle r rest) := by
  rw [step_of_script hs]
  cases r with
  | host =>
    have sel : hostSelect { txReady := c } (s.inCycle .host rest) = none := by
      rcases h with ⟨htr, rfl⟩ | htr
      · have htr : s.host.trState = .hSend := htr
        simp [hostSelect, htr]
      · have htr : s.host.trState = .hRecv := htr
        simp [hostSelect, htr, delivered_unoffered]
    change hostCycle { txReady := c } (s.inCycle .host rest) = _
    rw [hostCycle_of_none rfl (readOk_none _) sel, clientWrite_none rfl, hostTick, if_neg (by simp)]
  | device =>
    have sel : deviceSelect { txReady := c } (s.inCycle .device rest) = none := by
      rcases h with ⟨htr, rfl⟩ | htr
      · have htr : s.device.trState = .dSend := htr
        simp [deviceSelect, htr]
      · have htr : s.device.trState = .dRecv := htr
        simp [deviceSelect, htr, delivered_unoffered]
    change deviceCycle { txReady := c } (s.inCycle .device rest) = _
    rw [deviceCycle_of_none rfl (readOk_none _) sel, dispatcherWrite_none rfl]

/-- A block that receives and is offered nothing stays as it is. -/
theorem run_unoffered {r : Role} {s : State} (htr : (s.block r).trState = receivingIn r) (ready : List Bool)
    (rest : List Move) :
    runSteps ready.length (s.inCycle r (ready.map (fun c => readyCycle c r) ++ rest)) = .next (s.inCycle r rest) := by
  induction ready with
  | nil => rfl
  | cons c ready ih =>
    have idle := step_idle (s := s.inCycle r ((c :: ready).map (fun c => readyCycle c r) ++ rest)) rfl
      (.inr (by simpa using htr))
    rw [List.length_cons, runSteps_of_step _ idle, inCycle_inCycle]
    exact ih

/-! ### The send loop under backpressure -/

/-- With room in the channel, everything that the encoder sends joins the stream, a byte for each cycle in which the
channel accepts, and then the block receives (42_host_correlator R183, R185, 43_device_responder R216). -/
theorem run_sends_ready {r : Role} {b c : Block} {w : List Byte} {ready : List Bool} (h : b.Sends w c) {s : State}
    {rest : List Move} (hb : s.block r = b) (hrun : b.encRun = true) (hstop : c.encRun = false)
    (htr : b.trState = sendingIn r) (hroom : (s.stream r).length + w.length ≤ s.params.chDepth)
    (hcount : ready.count true = w.length) (hs : s.script = ready.map (fun c => readyCycle c r) ++ rest) :
    runSteps ready.length s =
      .next (((s.inCycle r rest).setBlock r (c.turnToReceive r)).setStream r (s.stream r ++ w)) := by
  induction ready generalizing s b w with
  | nil =>
    cases h with
    | nil => rw [hrun] at hstop; cases hstop
    | cons => simp at hcount
  | cons accepts ready ih =>
    subst hb
    cases accepts with
    | false =>
      have idle := step_idle hs (.inl ⟨htr, rfl⟩)
      rw [List.length_cons, runSteps_of_step _ idle]
      rw [ih h (by simp) hrun htr (by simpa using hroom) (by simpa using hcount) (by simp)]
      simp
    | true =>
      cases h with
      | nil => rw [hrun] at hstop; cases hstop
      | @cons _ b' _ v w run inside once more =>
        simp only [List.length_cons] at hroom
        rw [List.map_cons, readyCycle_true] at hs
        have st := step_accept hs htr run inside once
        rw [emit_of_room v (by simp only [setBlock_stream, inCycle_stream, setBlock_params, inCycle_params]; omega)]
          at st
        rw [List.length_cons, runSteps_of_step _ st]
        have hcount' : ready.count true = w.length := by simpa using hcount
        by_cases hend : b'.encRun = false
        · obtain ⟨rfl, rfl⟩ := sends_stopped more hend
          rw [afterAccept_stopped (by simpa using hend)]
          have quiet := run_unoffered (r := r)
            (s := (s.setBlock r (c.turnToReceive r)).setStream r (s.stream r ++ [v])) (by simp [Block.turnToReceive])
            ready rest
          cases r <;> exact quiet
        · have hgo : b'.encRun = true := by simpa using hend
          rw [afterAccept_running (by simpa using hgo)]
          rw [ih more (by simp) hgo ((sendOnce_trState once).trans htr) (by simp; omega) hcount' (by simp)]
          cases r <;> simp [State.inCycle, State.setBlock, State.setStream, State.stream]

/-- Settles O57: the acknowledge begins the response, and the send loop carries it out. -/
theorem deviceSendsTheEncodedResponse : Obligations.DeviceSendsTheEncodedResponse := by
  intro s st p ready rest w hw htr hlen hp hroom hcount hs
  have sel (m : List Move) :
      deviceSelect { ack := .port st p.length } (s.inCycle .device m) = some (.devRespond st p.length) := by
    simp [deviceSelect, ackPulse, htr]
  have start := step_device_of_select hs rfl rfl rfl (sel _)
  rw [exec_devRespond (by exact htr) hlen] at start
  have sends : (s.device.beginResponse st p.length).Sends w _ :=
    hw ▸ sends_encodeFrame rfl rfl (frameFrom_of_readRange (b := s.device.beginResponse st p.length) rfl hp)
  have begun := (runSteps_one s).trans start
  exact ⟨_, (runSteps_add _ begun).trans (run_sends_ready (r := .device) sends rfl rfl rfl rfl hroom hcount rfl),
    rfl, rfl, rfl, rfl, rfl, rfl, rfl, rfl, rfl, rfl, rfl, rfl⟩

end Sys2Proof.Machine

/-! PROOF of O10 to O16 (41_decoder R151 to R159). Each operation is one row of the table of R152, so what it writes is
what `Block.recvOnce` writes for a byte of that row; the two that append differ only in the escape flag. -/

namespace Sys2Proof.Machine

/-! ### The operation the table selects (41_decoder R152) -/

/-- A bare decoder operation acts on the block whose turn it is (log 3). -/
theorem exec_streamDecoder {i : Instr} (hi : i.group = .streamDecoder) (s : State) :
    exec i s = decoderRun s.turn i s := by
  cases i with
  | decEnd => rfl
  | decLitesc => rfl
  | decBadesc v => rfl
  | decEsc => rfl
  | decData v => rfl
  | _ => cases hi

/-- A row of the table: a byte of the row runs the row's operation. -/
theorem decoderOp_of_row {s : State} {v : Byte} {i : Instr} (row : decodeStream (s.block s.turn).decEsc v = i) :
    decoderOp s.turn v s = exec i s := by
  obtain ⟨-, hi, -⟩ := decodeStream_selects (s.block s.turn).decEsc v
  rw [row] at hi
  rw [exec_streamDecoder hi, decoderOp, row]

/-- The operation of a row writes what a byte of the row does. -/
theorem exec_of_row {s : State} {v : Byte} {i : Instr} (hrun : (s.block s.turn).decRun = true)
    (row : decodeStream (s.block s.turn).decEsc v = i) :
    exec i s = .next (s.setBlock s.turn ((s.block s.turn).recvOnce v)) :=
  (decoderOp_of_row row).symm.trans (decoderOp_of_decRun v hrun)

/-- Every delivered byte restarts the timer (60_exceptions R291). -/
theorem recvOnce_idleCnt (b : Block) (v : Byte) : (b.recvOnce v).idleCnt = 0 := by
  obtain ⟨_, _, _, _, _, _, e, -⟩ := recvOnce_writes b v
  rw [e]

/-- While no decode runs, nothing is delivered (10_state R41). -/
theorem delivered_stopped {s : State} {r : Role} (hstop : (s.block r).decRun = false) (rxValid chFail rst : Bool) :
    delivered s r rxValid chFail rst = none :=
  if_neg (by simp [Block.rxReady, hstop])

/-- Settles O10: row by row. -/
theorem decoderSelectionIsTheTable : Obligations.DecoderSelectionIsTheTable := by
  rintro s b v rfl
  refine ⟨fun hrun => ⟨fun he hv => ?_, fun he hv => ?_, fun he hv => ?_, fun he hv => ?_, fun he hend hesc => ?_,
    decoderOp_of_decRun v hrun, recvOnce_idleCnt _ v⟩, delivered_stopped⟩
  · exact decoderOp_of_row (by rw [he, hv]; rfl)
  · exact decoderOp_of_row (by rw [he, decodeStream_data hv])
  · exact decoderOp_of_row (by rw [he, hv]; rfl)
  · exact decoderOp_of_row (by rw [he, hv]; rfl)
  · exact decoderOp_of_row (by rw [he, decodeStream_badesc hesc hend])

/-! ### The three cases of an Append (41_decoder R155), each as an equation -/

theorem append_of_err {b : Block} (v : Byte) (herr : b.decErr = true) : b.append v = b := if_pos herr

theorem append_of_full {b : Block} (v : Byte) (herr : b.decErr = false) (full : b.decLen = Config.capRx) :
    b.append v = { b with decErr := true } := by
  rw [Block.append, if_neg (by simp [herr]), if_pos full, errAfterAppend, decide_eq_true full, Bool.or_true]

theorem append_of_room {b : Block} (v : Byte) (herr : b.decErr = false) (room : b.decLen ≠ Config.capRx) :
    b.append v = { b with rxbuf := Memory.write b.rxbuf b.decLen v, decLen := b.decLen + 1 } :=
  (if_neg (by simp [herr])).trans (if_neg room)

/-! ### The operations one by one -/

/-- Settles O11. -/
theorem decStartClearsTheDecoder : Obligations.DecStartClearsTheDecoder := by
  rintro s b rfl
  have start : exec .decStart s = .next (s.setBlock s.turn (s.block s.turn).decStart) := rfl
  refine ⟨start, fun t ht chFail rst => ?_⟩
  cases start.symm.trans ht
  simp [Block.rxReady]

/-- Settles O12. -/
theorem decEscSetsTheFlag : Obligations.DecEscSetsTheFlag := by
  rintro s b rfl hrun he
  rw [exec_of_row (v := Config.esc) hrun (by rw [he]; rfl), recvOnce_esc he]

/-- Settles O13. -/
theorem decDataAppends : Obligations.DecDataAppends := by
  rintro s b v rfl hrun he hv
  rw [exec_of_row hrun (by rw [he, decodeStream_data hv]), recvOnce_data he hv]
  refine ⟨fun herr => ?_, fun herr full => ?_, fun herr room => ?_⟩
  · rw [append_of_err v herr]
  · rw [append_of_full v herr full]
  · rw [append_of_room v herr room]
    exact ⟨_, rfl, read_write_same _ _ _, fun a ha => read_write_other _ _ ha⟩

/-- Settles O14. -/
theorem decLitescAppendsTheEscape : Obligations.DecLitescAppendsTheEscape := by
  rintro s b rfl hrun he
  rw [exec_of_row (v := Config.esc) hrun (by rw [he]; rfl), recvOnce_litesc he]
  refine ⟨fun herr => ?_, fun herr full => ?_, fun herr room => ?_⟩
  · rw [append_of_err _ herr]
  · rw [append_of_full _ herr full]
  · rw [append_of_room _ herr room]
    exact ⟨_, rfl, read_write_same _ _ _, fun a ha => read_write_other _ _ ha⟩

/-- Settles O15. -/
theorem decBadescSetsTheError : Obligations.DecBadescSetsTheError := by
  rintro s b v rfl hrun he hend hesc
  rw [exec_of_row hrun (by rw [he, decodeStream_badesc hesc hend]), recvOnce_badesc he hend hesc]

/-- The end of data ends a decode of the HOST when the timer has expired (41_decoder R159). -/
theorem decEodOn_expired {s : State} (hrun : s.host.decRun = true) (expired : s.host.idleCnt = s.params.nIdle) :
    decEodOn .host s = .next { s with host := { s.host with decRun := false, decRes := resAtEod s.host.decErr } } :=
  if_pos ⟨rfl, hrun, expired⟩

/-- Settles O16: the DEVICE's DEC.EOD is selected in no state. -/
theorem decodeEndsWithItsOutcome : Obligations.DecodeEndsWithItsOutcome := by
  refine ⟨?_, fun s t hturn ended => ?_, fun s hturn hrun expired => ?_⟩
  · rintro s b rfl hrun he
    rw [exec_of_row (v := Config.endMark) hrun (by rw [he]; rfl), recvOnce_end he]
    refine ⟨rfl, fun t ht chFail rst => ?_⟩
    cases ht
    simp [Block.rxReady]
  · obtain ⟨isHost, -⟩ := decEodOn_next ended
    rw [hturn] at isHost
    cases isHost
  · have acts : exec .decEod s = decEodOn .host s := congrArg (decEodOn · s) hturn
    exact acts.trans (decEodOn_expired hrun expired)

end Sys2Proof.Machine

/-! PROOF of O55 (41_decoder R165, 40_encoder R140). Whatever the carry, decoding an encoded frame appends the bytes of
the frame one by one and ends; the three claims are then about appending a list. -/

namespace Sys2Proof.Machine

/-! ### Append on a carry (41_decoder R155) -/

theorem carryAppend_of_err {cap : Nat} {c : DecCarry} (v : Byte) (herr : c.err = true) : c.append cap v = c :=
  if_pos herr

theorem carryAppend_of_full {cap : Nat} {c : DecCarry} (v : Byte) (herr : c.err = false) (full : c.out.length = cap) :
    c.append cap v = { c with err := true } :=
  (if_neg (by simp [herr])).trans (if_pos full)

theorem carryAppend_of_room {cap : Nat} {c : DecCarry} (v : Byte) (herr : c.err = false) (room : c.out.length ≠ cap) :
    c.append cap v = { c with out := c.out ++ [v] } :=
  (if_neg (by simp [herr])).trans (if_neg room)

/-- What an Append can do to a carry. -/
theorem carryAppend_cases (cap : Nat) (c : DecCarry) (v : Byte) :
    c.append cap v = c ∨ c.out.length = cap ∧ c.append cap v = { c with err := true } ∨
    c.out.length ≠ cap ∧ c.append cap v = { c with out := c.out ++ [v] } := by
  by_cases herr : c.err = true
  · exact .inl (carryAppend_of_err v herr)
  · have herr : c.err = false := by simpa using herr
    by_cases full : c.out.length = cap
    · exact .inr (.inl ⟨full, carryAppend_of_full v herr full⟩)
    · exact .inr (.inr ⟨full, carryAppend_of_room v herr full⟩)

theorem carryAppend_esc (cap : Nat) (c : DecCarry) (v : Byte) : (c.append cap v).esc = c.esc := by
  rcases carryAppend_cases cap c v with e | ⟨-, e⟩ | ⟨-, e⟩ <;> rw [e]

theorem carryAppend_out_le {cap : Nat} {c : DecCarry} (v : Byte) (h : c.out.length ≤ cap) :
    (c.append cap v).out.length ≤ cap := by
  rcases carryAppend_cases cap c v with e | ⟨-, e⟩ | ⟨room, e⟩
  · rwa [e]
  · rwa [e]
  · rw [e, List.length_append, List.length_singleton]
    omega

/-- Once the error flag is set, nothing more is appended. -/
theorem foldl_append_of_err {cap : Nat} {c : DecCarry} (f : List Byte) (herr : c.err = true) :
    f.foldl (DecCarry.append cap) c = c := by
  induction f with
  | nil => rfl
  | cons v f ih => rw [List.foldl_cons, carryAppend_of_err v herr, ih]

/-- A frame that fits is appended whole. -/
theorem foldl_append_of_room {cap : Nat} {c : DecCarry} {f : List Byte} (herr : c.err = false)
    (fits : c.out.length + f.length ≤ cap) : f.foldl (DecCarry.append cap) c = { c with out := c.out ++ f } := by
  induction f generalizing c with
  | nil => rw [List.foldl_nil, List.append_nil]
  | cons v f ih =>
    rw [List.length_cons] at fits
    have later := ih (c := { c with out := c.out ++ [v] }) herr (by simp; omega)
    rw [List.foldl_cons, carryAppend_of_room v herr (by omega), later]
    simp

/-- A frame that does not fit leaves the error flag set. -/
theorem foldl_append_err {cap : Nat} {c : DecCarry} {f : List Byte} (h : c.out.length ≤ cap)
    (long : cap < c.out.length + f.length) : (f.foldl (DecCarry.append cap) c).err = true := by
  induction f generalizing c with
  | nil => rw [List.length_nil] at long; omega
  | cons v f ih =>
    rw [List.length_cons] at long
    rw [List.foldl_cons]
    by_cases herr : c.err = true
    · rw [carryAppend_of_err v herr, foldl_append_of_err f herr, herr]
    have herr : c.err = false := by simpa using herr
    by_cases full : c.out.length = cap
    · rw [carryAppend_of_full v herr full, foldl_append_of_err f rfl]
    · rw [carryAppend_of_room v herr full]
      exact ih (by simp; omega) (by simp; omega)

/-! ### One byte of a decode, by the rows of 41_decoder R152 -/

/-- The five rows of the table. -/
theorem decoderRow_cases (esc : Bool) (v : Byte) :
    esc = false ∧ v = Config.esc ∨ esc = false ∧ v ≠ Config.esc ∨ esc = true ∧ v = Config.endMark ∨
    esc = true ∧ v = Config.esc ∨ esc = true ∧ v ≠ Config.endMark ∧ v ≠ Config.esc := by
  cases esc with
  | false =>
    by_cases hesc : v = Config.esc
    · exact .inl ⟨rfl, hesc⟩
    · exact .inr (.inl ⟨rfl, hesc⟩)
  | true =>
    by_cases hend : v = Config.endMark
    · exact .inr (.inr (.inl ⟨rfl, hend⟩))
    by_cases hesc : v = Config.esc
    · exact .inr (.inr (.inr (.inl ⟨rfl, hesc⟩)))
    · exact .inr (.inr (.inr (.inr ⟨rfl, hend, hesc⟩)))

/-- The result of a decode that a terminator ends with this carry (41_decoder R156). -/
def DecCarry.outcome (c : DecCarry) : Decoded := if c.err then .framingError else .frame c.out

section
variable {cap : Nat} {c : DecCarry} {v : Byte}

theorem onByte_esc (he : c.esc = false) : c.onByte cap Config.esc = .inl { c with esc := true } := by
  rw [DecCarry.onByte, if_neg (by simp [he]), if_pos rfl]

theorem onByte_data (he : c.esc = false) (hv : v ≠ Config.esc) : c.onByte cap v = .inl (c.append cap v) := by
  rw [DecCarry.onByte, if_neg (by simp [he]), if_neg hv]

theorem onByte_end (he : c.esc = true) : c.onByte cap Config.endMark = .inr c.outcome := by
  rw [DecCarry.onByte, if_pos he, if_pos rfl, DecCarry.outcome]

theorem onByte_litesc (he : c.esc = true) :
    c.onByte cap Config.esc = .inl (DecCarry.append cap { c with esc := false } Config.esc) := by
  rw [DecCarry.onByte, if_pos he, if_neg (by decide), if_pos rfl]

theorem onByte_badesc (he : c.esc = true) (hend : v ≠ Config.endMark) (hesc : v ≠ Config.esc) :
    c.onByte cap v = .inl { c with esc := false, err := true } := by
  rw [DecCarry.onByte, if_pos he, if_neg hend, if_neg hesc]

theorem decodeFrom_of_inl {c' : DecCarry} (h : c.onByte cap v = .inl c') (e : List DecEvent) :
    decodeFrom cap c (.byte v :: e) = decodeFrom cap c' e := by
  rw [decodeFrom, h]

theorem decodeFrom_of_inr {d : Decoded} (h : c.onByte cap v = .inr d) (e : List DecEvent) :
    decodeFrom cap c (.byte v :: e) = some (d, e) := by
  rw [decodeFrom, h]

/-- A byte that does not end the decode keeps what is appended within the capacity. -/
theorem onByte_inl_out_le {c' : DecCarry} (h : c.out.length ≤ cap) (more : c.onByte cap v = .inl c') :
    c'.out.length ≤ cap := by
  rcases decoderRow_cases c.esc v with ⟨he, rfl⟩ | ⟨he, hv⟩ | ⟨he, rfl⟩ | ⟨he, rfl⟩ | ⟨he, hend, hesc⟩
  · cases (onByte_esc he).symm.trans more
    exact h
  · cases (onByte_data he hv).symm.trans more
    exact carryAppend_out_le v h
  · cases (onByte_end he).symm.trans more
  · cases (onByte_litesc he).symm.trans more
    exact carryAppend_out_le (c := { c with esc := false }) _ h
  · cases (onByte_badesc he hend hesc).symm.trans more
    exact h

/-- Only a terminator ends a decode. -/
theorem onByte_inr {d : Decoded} (ends : c.onByte cap v = .inr d) :
    c.esc = true ∧ v = Config.endMark ∧ d = c.outcome := by
  rcases decoderRow_cases c.esc v with ⟨he, rfl⟩ | ⟨he, hv⟩ | ⟨he, rfl⟩ | ⟨he, rfl⟩ | ⟨he, hend, hesc⟩
  · cases (onByte_esc he).symm.trans ends
  · cases (onByte_data he hv).symm.trans ends
  · cases (onByte_end he).symm.trans ends
    exact ⟨he, rfl, rfl⟩
  · cases (onByte_litesc he).symm.trans ends
  · cases (onByte_badesc he hend hesc).symm.trans ends

theorem outcome_eq_frame {f : List Byte} (h : c.outcome = .frame f) : c.err = false ∧ c.out = f := by
  unfold DecCarry.outcome at h
  split at h
  · cases h
  · next herr => cases h; exact ⟨by simpa using herr, rfl⟩

end

/-! ### Decoding an encoded frame -/

/-- Decoding an encoded frame appends its bytes, takes the terminator and no more. -/
theorem decodeFrom_encodeFrame (cap : Nat) {c : DecCarry} (f : List Byte) (e : List DecEvent) (he : c.esc = false) :
    decodeFrom cap c ((encodeFrame f).map DecEvent.byte ++ e) =
      some ((f.foldl (DecCarry.append cap) c).outcome, e) := by
  induction f generalizing c with
  | nil => exact (decodeFrom_of_inl (onByte_esc he) _).trans (decodeFrom_of_inr (onByte_end rfl) e)
  | cons v f ih =>
    rw [List.foldl_cons, ← ih ((carryAppend_esc cap c v).trans he)]
    by_cases hv : v = Config.esc
    · subst hv
      have same : ({ c with esc := false } : DecCarry) = c := by rw [← he]
      rw [encodeFrame_cons_esc]
      refine (decodeFrom_of_inl (onByte_esc he) _).trans ((decodeFrom_of_inl (onByte_litesc rfl) _).trans ?_)
      rw [same]
      rfl
    · rw [encodeFrame_cons_literal hv]
      exact decodeFrom_of_inl (onByte_data he hv) _

/-- 41_decoder R165 (a). -/
theorem decodeEvents_encodeFrame_of_fits {cap : Nat} {f : List Byte} (e : List DecEvent) (fits : f.length ≤ cap) :
    decodeEvents cap ((encodeFrame f).map DecEvent.byte ++ e) = some (.frame f, e) := by
  rw [decodeEvents, decodeFrom_encodeFrame cap f e rfl,
    foldl_append_of_room rfl (by simpa [DecCarry.start] using fits)]
  rfl

/-- 41_decoder R165 (b). -/
theorem decodeEvents_encodeFrame_of_long {cap : Nat} {f : List Byte} (e : List DecEvent) (long : cap < f.length) :
    decodeEvents cap ((encodeFrame f).map DecEvent.byte ++ e) = some (.framingError, e) := by
  have err : (f.foldl (DecCarry.append cap) DecCarry.start).err = true :=
    foldl_append_err (Nat.zero_le _) (by simpa [DecCarry.start] using long)
  rw [decodeEvents, decodeFrom_encodeFrame cap f e rfl, DecCarry.outcome, if_pos err]

/-- 41_decoder R165 (c), from any carry within the capacity. -/
theorem decodeFrom_frame_length_le {cap : Nat} {c : DecCarry} {e rest : List DecEvent} {f : List Byte}
    (h : c.out.length ≤ cap) (dec : decodeFrom cap c e = some (.frame f, rest)) : f.length ≤ cap := by
  induction e generalizing c with
  | nil => cases dec
  | cons x e ih =>
    cases x with
    | eod =>
      rw [decodeFrom] at dec
      split at dec <;> cases dec
    | byte v =>
      cases once : c.onByte cap v with
      | inl c' =>
        rw [decodeFrom_of_inl once] at dec
        exact ih (onByte_inl_out_le h once) dec
      | inr d =>
        rw [decodeFrom_of_inr once] at dec
        cases dec
        obtain ⟨-, -, isOutcome⟩ := onByte_inr once
        obtain ⟨-, rfl⟩ := outcome_eq_frame isOutcome.symm
        exact h

/-- 40_encoder R140 (c): with room for both, each frame is what its encoding decodes to. -/
theorem encodeFrame_injective {f g : List Byte} (h : encodeFrame f = encodeFrame g) : f = g := by
  have decF := decodeEvents_encodeFrame_of_fits [] (Nat.le_max_left f.length g.length)
  have decG := decodeEvents_encodeFrame_of_fits [] (Nat.le_max_right f.length g.length)
  rw [h] at decF
  cases decF.symm.trans decG
  rfl

/-- Settles O55. -/
theorem decodeOfEncodedFrame : Obligations.DecodeOfEncodedFrame :=
  ⟨fun _ _ e => ⟨decodeEvents_encodeFrame_of_fits e, decodeEvents_encodeFrame_of_long e⟩,
    fun _ _ _ _ dec => decodeFrom_frame_length_le (Nat.zero_le _) dec, fun _ _ => encodeFrame_injective⟩

end Sys2Proof.Machine

/-! PROOF of O58 (41_decoder R150, 43_device_responder R211, R221). The registers of a block that is decoding carry what
`Decode` carries; a byte keeps that or ends both with the same outcome, and what the DEVICE does with the outcome is
R212 to R214. -/

namespace Sys2Proof.Machine

/-! ### Buffers: a range by its first and by its last byte -/

theorem readRange_cons {m : Memory} {a n : Nat} {v : Byte} {l : List Byte}
    (h : Memory.readRange m a (n + 1) = some (v :: l)) :
    Memory.read m a = some v ∧ Memory.readRange m (a + 1) n = some l := by
  rw [Memory.readRange] at h
  split at h
  · next hv hl => cases h; exact ⟨hv, hl⟩
  · cases h

/-- A byte written behind a range makes it one byte longer. -/
theorem readRange_write_end {m : Memory} {a n : Nat} {l : List Byte} (v : Byte)
    (h : Memory.readRange m a n = some l) :
    Memory.readRange (Memory.write m (a + n) v) a (n + 1) = some (l ++ [v]) := by
  induction n generalizing a l with
  | zero =>
    cases h
    simp [Memory.readRange, read_write_same]
  | succ n ih =>
    rw [Memory.readRange] at h
    split at h
    · next x t hx ht =>
      cases h
      have tail := ih ht
      rw [Nat.add_right_comm, Nat.add_assoc] at tail
      rw [Memory.readRange, read_write_other _ _ (by omega), hx, tail]
      rfl
    · cases h

/-! ### The decoder's registers and the carry of `Decode` -/

/-- The registers hold what a decode carries (41_decoder R150). -/
def Block.carries (b : Block) (c : DecCarry) : Prop :=
  b.decEsc = c.esc ∧ b.decErr = c.err ∧ b.frame = some c.out

/-- The registers hold the result of a decode that a terminator has ended (41_decoder R156, R161). -/
def Block.delivers (b : Block) : Decoded → Prop
  | .frame f => b.decRes = .frameOk ∧ b.frame = some f
  | .framingError => b.decRes = .framingError
  | .timeout => False

theorem carries_start {b : Block} (hesc : b.decEsc = false) (herr : b.decErr = false) (hlen : b.decLen = 0) :
    b.carries DecCarry.start :=
  ⟨hesc, herr, by rw [Block.frame, hlen]; rfl⟩

/-- Both Appends make the same tests and store the same byte (41_decoder R155). -/
theorem carries_append {b : Block} {c : DecCarry} (v : Byte) (h : b.carries c) :
    (b.append v).carries (c.append Config.capRx v) := by
  obtain ⟨hesc, herr, hout⟩ := h
  have len : c.out.length = b.decLen := readRange_length hout
  by_cases err : b.decErr = true
  · rw [append_of_err v err, carryAppend_of_err v (herr ▸ err)]
    exact ⟨hesc, herr, hout⟩
  have err : b.decErr = false := by simpa using err
  by_cases full : b.decLen = Config.capRx
  · rw [append_of_full v err full, carryAppend_of_full v (herr ▸ err) (len.trans full)]
    exact ⟨hesc, rfl, hout⟩
  · rw [append_of_room v err full, carryAppend_of_room v (herr ▸ err) (len ▸ full)]
    have longer := readRange_write_end v hout
    rw [Nat.zero_add] at longer
    exact ⟨hesc, herr, longer⟩

/-- A byte that does not end `Decode` does not end the decode, and the registers carry on. -/
theorem recvOnce_carries {b : Block} {c c' : DecCarry} {v : Byte} (h : b.carries c)
    (more : c.onByte Config.capRx v = .inl c') :
    (b.recvOnce v).carries c' ∧ (b.recvOnce v).decRun = b.decRun := by
  have ⟨hesc, herr, hout⟩ := h
  rcases decoderRow_cases c.esc v with ⟨he, rfl⟩ | ⟨he, hv⟩ | ⟨he, rfl⟩ | ⟨he, rfl⟩ | ⟨he, hend, hv⟩
  · cases (onByte_esc he).symm.trans more
    rw [recvOnce_esc (hesc.trans he)]
    exact ⟨⟨rfl, herr, hout⟩, rfl⟩
  · cases (onByte_data he hv).symm.trans more
    rw [recvOnce_data (hesc.trans he) hv]
    exact ⟨carries_append v h, append_decRun b v⟩
  · cases (onByte_end he).symm.trans more
  · cases (onByte_litesc he).symm.trans more
    have cleared : Block.carries { b with decEsc := false } { c with esc := false } := ⟨rfl, herr, hout⟩
    have carried := carries_append Config.esc cleared
    rw [append_clearEsc] at carried
    rw [recvOnce_litesc (hesc.trans he)]
    exact ⟨carried, append_decRun b _⟩
  · cases (onByte_badesc he hend hv).symm.trans more
    rw [recvOnce_badesc (hesc.trans he) hend hv]
    exact ⟨⟨rfl, rfl, hout⟩, rfl⟩

/-- The byte that ends `Decode` ends the decode with its result. -/
theorem recvOnce_delivers {b : Block} {c : DecCarry} {v : Byte} {d : Decoded} (h : b.carries c)
    (ends : c.onByte Config.capRx v = .inr d) : (b.recvOnce v).delivers d ∧ (b.recvOnce v).decRun = false := by
  obtain ⟨hesc, herr, hout⟩ := h
  obtain ⟨he, rfl, rfl⟩ := onByte_inr ends
  rw [recvOnce_end (hesc.trans he), herr, DecCarry.outcome]
  refine ⟨?_, rfl⟩
  split
  · next err => rw [err]; rfl
  · next err => exact ⟨by rw [Bool.eq_false_iff.2 err]; rfl, hout⟩

/-- The decoder computes `Decode` (43_device_responder R221). -/
theorem takes_of_decodeFrom {b : Block} {c : DecCarry} {w : List Byte} {d : Decoded} (hrun : b.decRun = true)
    (h : b.carries c) (dec : decodeFrom Config.capRx c (w.map DecEvent.byte) = some (d, [])) :
    ∃ b', b.Takes w b' ∧ b'.decRun = false ∧ b'.delivers d := by
  induction w generalizing b c with
  | nil => cases dec
  | cons v w ih =>
    rw [List.map_cons] at dec
    cases once : c.onByte Config.capRx v with
    | inl c' =>
      rw [decodeFrom_of_inl once] at dec
      obtain ⟨carried, running⟩ := recvOnce_carries h once
      obtain ⟨b', takes, ended⟩ := ih (running.trans hrun) carried dec
      exact ⟨b', .cons hrun takes, ended⟩
    | inr d' =>
      rw [decodeFrom_of_inr once, Option.some.injEq, Prod.mk.injEq, List.map_eq_nil_iff] at dec
      obtain ⟨rfl, rfl⟩ := dec
      obtain ⟨delivered, stopped⟩ := recvOnce_delivers h once
      exact ⟨_, .cons hrun (.nil _), stopped, delivered⟩

/-- The bytes that a block takes leave its transport and its `TXPAY` alone. -/
theorem takes_keeps {b c : Block} {w : List Byte} (h : b.Takes w c) :
    c.trState = b.trState ∧ c.txpay = b.txpay := by
  induction h with
  | nil b => exact ⟨rfl, rfl⟩
  | @cons b c v w _ _ ih =>
    obtain ⟨htr, hpay⟩ := ih
    obtain ⟨hpay', -, -⟩ := recvOnce_keepsFrame b v
    exact ⟨htr.trans (recvOnce_trState b v), hpay.trans hpay'⟩

/-! ### What the DEVICE does with the outcome -/

theorem holds_of_frame {b : Block} {x y : Byte} {p : List Byte} (h : b.frame = some (x :: y :: p)) :
    b.holds x y p := by
  have len : b.decLen = p.length + 1 + 1 := (readRange_length h).symm
  rw [Block.frame, len] at h
  obtain ⟨hx, h⟩ := readRange_cons h
  obtain ⟨hy, hp⟩ := readRange_cons h
  refine ⟨by omega, hx, hy, ?_⟩
  rw [Block.payload, len]
  exact hp

/-- A result that is not a frame of two bytes or more is an error or a short frame. -/
theorem delivers_dropped {b : Block} {d : Decoded} (h : b.delivers d) (short : ∀ id op p, d ≠ .frame (id :: op :: p)) :
    b.decRes = .framingError ∨ b.decRes = .frameOk ∧ b.decLen < 2 := by
  cases d with
  | timeout => exact h.elim
  | framingError => exact .inl h
  | frame f =>
    obtain ⟨hres, hf⟩ := h
    have len : f.length = b.decLen := readRange_length hf
    match f, short with
    | [], _ => exact .inr ⟨hres, by rw [← len]; decide⟩
    | [x], _ => exact .inr ⟨hres, by rw [← len]; exact Nat.one_lt_two⟩
    | x :: y :: p, short => exact absurd rfl (short x y p)

/-- An error or a short frame is dropped, and the decoder starts again (43_device_responder R212, R213). -/
theorem afterDecode_dropped (s : State) {b : Block} (htr : b.trState = .dRecv) (hrun : b.decRun = false)
    (dropped : b.decRes = .framingError ∨ b.decRes = .frameOk ∧ b.decLen < 2) :
    afterDecode (s.setBlock .device b) = .next (s.setBlock .device b.decStart) := by
  rcases dropped with hres | ⟨hres, hlen⟩
  · simp only [afterDecode, discardOp, setBlock_device_device, htr, hrun, hres, and_self, if_true]
    rfl
  · simp only [afterDecode, discardShortOp, setBlock_device_device, htr, hrun, hres, hlen, and_self, if_true]
    rfl

/-- Settles O58: the receive loop takes the bytes of the decode, then the outcome decides. -/
theorem deviceReceivesWhatDecodeGives : Obligations.DeviceReceivesWhatDecodeGives := by
  intro s bytes tail rest d htr hrun hesc herr hlen hhd dec hs
  obtain ⟨b, takes, stopped, result⟩ := takes_of_decodeFrom hrun (carries_start hesc herr hlen) dec
  obtain ⟨sameTr, samePay⟩ := takes_keeps takes
  have run := run_takes (r := .device) takes rfl hrun stopped htr hhd hs
  by_cases command : ∃ id op p, d = .frame (id :: op :: p)
  · obtain ⟨id, op, p, rfl⟩ := command
    obtain ⟨hres, hf⟩ := result
    have held := holds_of_frame hf
    have ⟨_, _, _, hp⟩ := held
    refine ⟨_, run.trans (afterDecode_frame _ (sameTr.trans htr) stopped hres held), rfl, rfl, rfl, rfl, rfl, samePay,
      fun id' op' p' same => ?_, fun other => absurd rfl (other id op p)⟩
    cases same
    exact ⟨rfl, rfl, hf, hp⟩
  · have short : ∀ id op p, d ≠ .frame (id :: op :: p) := fun id op p e => command ⟨id, op, p, e⟩
    have dropped := afterDecode_dropped ((s.inCycle .device rest).setStream .host tail) (sameTr.trans htr) stopped
      (delivers_dropped result short)
    exact ⟨_, run.trans dropped, rfl, rfl, rfl, rfl, rfl, samePay, fun id op p e => absurd e (short id op p),
      fun _ => ⟨sameTr.trans htr, rfl, rfl, rfl, rfl⟩⟩

end Sys2Proof.Machine

/-! PROOF of O17 to O24 (42_host_correlator R181 to R192). An operation of the HOST is its test, then its writes; every
way a decode can end goes through one lemma, that HOST.VALIDATE ends the call with `Block.verdict`. -/

namespace Sys2Proof.Machine

/-! ### The verdict on a decode that has ended, test by test (42_host_correlator R189) -/

section
variable {b : Block}

theorem verdict_of_timeout (hres : b.decRes = .timeout) : b.verdict = some (.timeout, 0x00) := by
  simp only [Block.verdict, hres]

theorem verdict_of_framingError (hres : b.decRes = .framingError) : b.verdict = some (.framingError, 0x00) := by
  simp only [Block.verdict, hres]

theorem verdict_of_short (hres : b.decRes = .frameOk) (hlen : b.decLen < 2) :
    b.verdict = some (.shortFrame, 0x00) := by
  simp only [Block.verdict, hres, if_pos hlen]

/-- The status byte is not looked at if the id differs. -/
theorem verdict_of_otherId {id : Byte} (hres : b.decRes = .frameOk) (hlen : 2 ≤ b.decLen)
    (hid : Memory.read b.rxbuf 0 = some id) (other : id ≠ b.curId) : b.verdict = some (.desync, 0x00) := by
  simp only [Block.verdict, hres, if_neg (Nat.not_lt.2 hlen), hid]
  split
  · next e _ => cases e; exact if_pos other
  · next e _ => cases e; exact if_pos other
  · next e => cases e

theorem verdict_of_status {st : Byte} (hres : b.decRes = .frameOk) (hlen : 2 ≤ b.decLen)
    (hid : Memory.read b.rxbuf 0 = some b.curId) (hst : Memory.read b.rxbuf 1 = some st) :
    b.verdict = some (if st = 0x00 then .ok else .appStatus, st) := by
  simp only [Block.verdict, hres, if_neg (Nat.not_lt.2 hlen), hid, hst, ne_eq, not_true, if_false]
  split
  · next zero => rw [zero]
  · rfl

/-- The verdict when the data has ended (41_decoder R159). -/
theorem verdict_of_eod {err : Bool} (hres : b.decRes = resAtEod err) :
    b.verdict = some (if err then .framingError else .timeout, 0x00) := by
  cases err with
  | false => exact verdict_of_timeout hres
  | true => exact verdict_of_framingError hres

end

/-- A delivered byte leaves the encoder alone. -/
theorem recvOnce_encRun (b : Block) (v : Byte) : (b.recvOnce v).encRun = b.encRun := by
  obtain ⟨_, _, _, _, _, _, e, -⟩ := recvOnce_writes b v
  rw [e]

/-! ### HOST.VALIDATE ends the call with the verdict -/

/-- The registers of a HOST whose decode has ended and has yet to be judged (42_host_correlator R189). -/
structure Block.AwaitsVerdict (b : Block) : Prop where
  receiving : b.trState = .hRecv
  stopped : b.decRun = false
  silent : b.encRun = false

/-- With both units stopped, an exception writes no more than the end of a call does (log 24). -/
theorem next_raise {s : State} (ready : s.host.AwaitsVerdict) (k : CallResult) :
    (.next { s with host := s.host.raise k } : Out) = .next { s with host := s.host.ended k 0x00 } := by
  obtain ⟨-, stopped, silent⟩ := ready
  simp only [Block.raise, Block.endCall, Block.ended, stopped, silent]

theorem validateFrame_of_verdict {s : State} {res : CallResult} {st : Byte} (ready : s.host.AwaitsVerdict)
    (hres : s.host.decRes = .frameOk) (h : s.host.verdict = some (res, st)) :
    validateFrame s = .next { s with host := s.host.ended res st } := by
  unfold validateFrame
  simp only [Block.verdict, hres] at h
  split at h
  · next short => cases h; exact (if_pos short).trans (next_raise ready _)
  · next long =>
    rw [if_neg long]
    split at h
    · next id x hid hst =>
      simp only [hid, hst]
      split at h
      · next other => cases h; exact (if_pos other).trans (next_raise ready _)
      · next same =>
        rw [if_neg same]
        split at h
        · next zero => cases h; rw [if_pos zero]; rfl
        · next other => cases h; rw [if_neg other]; rfl
    · next id hid hst =>
      simp only [hid]
      split at h
      · next other => cases h; exact (if_pos other).trans (next_raise ready _)
      · cases h
    · cases h

theorem validateOp_of_verdict {s : State} {res : CallResult} {st : Byte} (ready : s.host.AwaitsVerdict)
    (h : s.host.verdict = some (res, st)) : validateOp s = .next { s with host := s.host.ended res st } := by
  have judged : validateOp s = _ := if_pos ⟨ready.receiving, ready.stopped⟩
  rw [judged]
  cases hres : s.host.decRes with
  | timeout => cases (verdict_of_timeout hres).symm.trans h; exact next_raise ready _
  | framingError => cases (verdict_of_framingError hres).symm.trans h; exact next_raise ready _
  | frameOk => exact validateFrame_of_verdict ready hres h
  | noResult => simp only [Block.verdict, hres, reduceCtorEq] at h

/-! ### The operations of a call one by one -/

/-- Settles O17. -/
theorem hostCallStartsTheCall : Obligations.HostCallStartsTheCall := fun _ _ _ _ hidle hid hcap =>
  ⟨exec_hostCall hidle hid hcap,
    fun _ hbig => (if_neg (not_not.2 hidle)).trans ((if_neg hid).trans (if_pos hbig))⟩

/-- While a call is in flight the HOST is not in H_IDLE (42_host_correlator R180). -/
theorem hostOk_busy {p : Params} {b : Block} (h : hostOk p b) (hbusy : b.busy = true) : b.trState ≠ .hIdle := by
  obtain ⟨⟨-, -, -, idle⟩ | ⟨htr, -⟩ | ⟨htr, -⟩, -⟩ := h
  · rw [hbusy] at idle; cases idle
  · rw [htr]; decide
  · rw [htr]; decide

/-- Outside H_IDLE the selection does not look at `start` (42_host_correlator R192). -/
theorem hostSelect_start_ignored (i : HostIn) {s : State} (htr : s.host.trState ≠ .hIdle) :
    hostSelect { i with start := none } s = hostSelect i s := by
  unfold hostSelect
  split
  · next hidle => exact absurd hidle htr
  all_goals rfl

/-- Settles O18: `start` is looked at in H_IDLE alone. -/
theorem startWhileBusyIsIgnored : Obligations.StartWhileBusyIsIgnored := by
  intro s ok hbusy
  have htr := hostOk_busy ok hbusy
  refine ⟨fun id op plen => if_pos htr, fun i => ?_⟩
  rw [hostCycle, hostCycle, hostSelect_start_ignored i htr]
  rfl

/-- Settles O19: HOST.SEND is the encoder operation of the table (40_encoder R138). -/
theorem hostSendRunsTheEncoder : Obligations.HostSendRunsTheEncoder := by
  intro s v b' htr hrun inside once
  have send : exec .hostSend s = encoderOp .host s := if_pos ⟨htr, hrun⟩
  exact send.trans (encoderOp_of_sendOnce hrun inside once)

/-- Settles O20: both raise ChannelError (60_exceptions R283). -/
theorem channelFailureEndsTheCall : Obligations.ChannelFailureEndsTheCall :=
  fun _ => ⟨fun htr => if_pos htr, fun htr => if_pos htr, rfl⟩

/-- Settles O21. -/
theorem hostEnterRecvStartsTheDecoder : Obligations.HostEnterRecvStartsTheDecoder :=
  fun _ htr hstop hdone => if_pos ⟨htr, hstop, hdone⟩

/-- Settles O22: the byte, then HOST.VALIDATE if it ended the decode. -/
theorem hostRecvDecodesAndValidates : Obligations.HostRecvDecodesAndValidates := by
  intro s v htr hrun henc
  rw [execHostRecv_eq v htr hrun]
  refine ⟨fun hgo => if_neg (by simp [hgo]), fun hstop res st hv => ?_⟩
  have ready : (s.host.recvOnce v).AwaitsVerdict :=
    ⟨(recvOnce_trState _ v).trans htr, hstop, (recvOnce_encRun _ v).trans henc⟩
  rw [if_pos hstop]
  exact validateOp_of_verdict (s := s.setBlock .host (s.host.recvOnce v)) ready hv

/-- Settles O23: DEC.EOD, then HOST.VALIDATE. -/
theorem hostTimeoutEndsTheCall : Obligations.HostTimeoutEndsTheCall := by
  intro s htr hrun henc expired
  have timeout : exec .hostTimeout s = andThen (decEodOn .host s) validateOp := if_pos htr
  rw [timeout, decEodOn_expired hrun expired, andThen_of_next]
  exact validateOp_of_verdict ⟨htr, rfl, henc⟩ (verdict_of_eod rfl)

/-- Settles O24: each test gives its verdict. -/
theorem hostValidateClassifies : Obligations.HostValidateClassifies := by
  refine ⟨fun s htr hdec henc => ?_, fun _ _ _ => rfl, rfl, rfl, rfl, rfl, rfl, rfl⟩
  have ends {res : CallResult} {st : Byte} (h : s.host.verdict = some (res, st)) :
      exec .hostValidate s = .next { s with host := s.host.ended res st } :=
    validateOp_of_verdict ⟨htr, hdec, henc⟩ h
  refine ⟨fun hres => ends (verdict_of_timeout hres), fun hres => ends (verdict_of_framingError hres),
    fun hres hlen => ends (verdict_of_short hres hlen), fun hres hlen id hid =>
      ⟨fun other => ends (verdict_of_otherId hres hlen hid other), ?_⟩⟩
  rintro rfl st hst
  have status := ends (verdict_of_status hres hlen hid hst)
  refine ⟨fun zero => ?_, fun nonzero => ?_⟩
  · rwa [if_pos zero, zero] at status
  · rwa [if_neg nonzero] at status

end Sys2Proof.Machine

/-! PROOF of O46 (42_host_correlator R180, 43_device_responder R210, 45_dispatcher_interface R230). A cycle is the
operation it selects, or its port write alone; what it selects is one equation for each state of the transport. -/

namespace Sys2Proof.Machine

/-! ### A cycle, by what it selects -/

theorem readOk_of_readFault {b : Block} {rd : Option Nat} (h : b.readFault rd = none) : readOk b rd := by
  rintro a rfl
  unfold Block.readFault at h
  dsimp only at h
  split at h
  · cases h
  · next below =>
    refine ⟨Nat.not_le.1 below, ?_⟩
    split at h
    · cases h
    · next v read => rw [read]; rfl

theorem hostCycle_of_operation {i : HostIn} {s : State} {op : Instr} (hrst : i.rst = false)
    (hrd : s.host.readFault i.rd = none) (sel : hostSelect i s = some op) :
    hostCycle i s = andThen (exec op (hostBefore op (clientWrite i s))) (hostAfter op) := by
  simp only [hostCycle, hrst, hrd, sel, Bool.false_eq_true, if_false]

theorem deviceCycle_of_operation {i : DevIn} {s : State} {op : Instr} (hrst : i.rst = false)
    (hrd : s.device.readFault i.rd = none) (sel : deviceSelect i s = some op) :
    deviceCycle i s = exec op (deviceBefore op (dispatcherWrite i s)) := by
  simp only [deviceCycle, hrst, hrd, sel, Bool.false_eq_true, if_false]

/-- HOST.SEND, then HOST.ENTER_RECV if it ended the encode (42_host_correlator R185). -/
theorem hostCycle_of_send {i : HostIn} {s t : State} (hrst : i.rst = false) (hrd : s.host.readFault i.rd = none)
    (sel : hostSelect i s = some .hostSend) (ht : exec .hostSend (clientWrite i s) = .next t) :
    hostCycle i s = if t.host.encRun = false then exec .hostEnterRecv t else .next t :=
  (hostCycle_of_operation hrst hrd sel).trans (congrArg (andThen · (hostAfter .hostSend)) ht)

/-- Outside H_RECV no tick is counted (60_exceptions R291). -/
theorem hostTick_outside {i : HostIn} {s : State} (htr : s.host.trState ≠ .hRecv) : hostTick i s = s :=
  if_neg fun ⟨_, h, _⟩ => htr h

/-- A cycle outside H_RECV that selects nothing is its port write. -/
theorem hostCycle_of_nothing {i : HostIn} {s : State} (hrst : i.rst = false) (hrd : s.host.readFault i.rd = none)
    (htr : s.host.trState ≠ .hRecv) (sel : hostSelect i s = none) : hostCycle i s = .next (clientWrite i s) := by
  rw [hostCycle_of_none hrst (readOk_of_readFault hrd) sel, hostTick_outside (by simpa [clientWrite] using htr)]

/-- While a call is in flight the client's port is closed (10_state R42). -/
theorem clientWrite_busy (i : HostIn) {s : State} (hbusy : s.host.busy = true) : clientWrite i s = s := by
  rw [clientWrite, hbusy, Bool.not_true, portWrite_closed]

/-- Outside D_DISPATCH the dispatcher's port is closed (10_state R43). -/
theorem dispatcherWrite_closed (i : DevIn) {s : State} (htr : s.device.trState ≠ .dDispatch) :
    dispatcherWrite i s = s := by
  rw [dispatcherWrite, Block.dispReq, decide_eq_false htr, portWrite_closed]

/-! ### What a HOST cycle selects (42_host_correlator R180) -/

theorem hostSelect_idle (i : HostIn) {s : State} (htr : s.host.trState = .hIdle) :
    hostSelect i s = i.start.map (fun p => .hostCall p.1 p.2.1 p.2.2) := by
  simp only [hostSelect, htr]

theorem hostSelect_chfailSend {i : HostIn} {s : State} (htr : s.host.trState = .hSend) (hfail : i.chFail = true) :
    hostSelect i s = some .hostChfailSend := by
  simp only [hostSelect, htr, hfail, if_true]

theorem hostSelect_send {i : HostIn} {s : State} (htr : s.host.trState = .hSend) (hrun : s.host.encRun = true)
    (hfail : i.chFail = false) (hrst : i.rst = false) :
    hostSelect i s = if i.txReady = true then some .hostSend else none := by
  simp [hostSelect, htr, hfail, hrst, Block.txValid, hrun]

/-! ### What a DEVICE cycle selects (43_device_responder R210) -/

theorem deviceSelect_recv (i : DevIn) {s : State} (htr : s.device.trState = .dRecv) :
    deviceSelect i s = (delivered s .device i.rxValid false i.rst).map .devRecv := by
  simp only [deviceSelect, htr]

theorem deviceSelect_dispatch (i : DevIn) {s : State} (htr : s.device.trState = .dDispatch) :
    deviceSelect i s = (ackPulse i s).map (fun p => .devRespond p.1 p.2) := by
  simp only [deviceSelect, htr]

theorem deviceSelect_send {i : DevIn} {s : State} (htr : s.device.trState = .dSend) (hrun : s.device.encRun = true)
    (hrst : i.rst = false) : deviceSelect i s = if i.txReady = true then some .devSend else none := by
  simp [deviceSelect, htr, hrst, Block.txValid, hrun]

/-- The pulse carries what another dispatcher gives, or what the dispatcher of 45_dispatcher_interface holds
(10_state R43). -/
theorem ackPulse_some {i : DevIn} {s : State} {st : Byte} {n : Nat}
    (h : i.ack = .port st n ∨ i.ack = .own ∧ s.disp.answer = some (st, n)) : ackPulse i s = some (st, n) := by
  rcases h with h | ⟨h, held⟩
  · rw [ackPulse, h]
  · rw [ackPulse, h]; exact held

theorem ackPulse_none {i : DevIn} {s : State} (h : i.ack = .low ∨ i.ack = .own ∧ s.disp.answer = none) :
    ackPulse i s = none := by
  rcases h with h | ⟨h, held⟩
  · rw [ackPulse, h]
  · rw [ackPulse, h]; exact held

/-- Nothing is delivered from an empty stream, or that is not offered (10_state R41). -/
theorem delivered_none {s : State} {r : Role} {rxValid : Bool} (chFail rst : Bool)
    (h : rxValid = false ∨ s.stream (otherRole r) = []) : delivered s r rxValid chFail rst = none := by
  rcases h with rfl | empty
  · exact delivered_unoffered s r chFail rst
  · rw [delivered, empty]
    exact ite_self _

/-! ### The dispatcher's moves (45_dispatcher_interface R230) -/

theorem dispatcherMove_idle {s : State} (h : s.device.trState ≠ .dDispatch ∨ s.disp.answer ≠ none) :
    dispatcherMove s = .next s := by
  refine if_neg fun ⟨hreq, hans⟩ => ?_
  rcases h with htr | held
  · exact htr (of_decide_eq_true hreq)
  · exact held hans

theorem dispatcherMove_serves {s : State} {v : Byte} {i : Instr} (htr : s.device.trState = .dDispatch)
    (hans : s.disp.answer = none) (hop : Memory.read s.device.rxbuf 1 = some v) (dec : decode (.opcode v) = .ok i) :
    dispatcherMove s = exec i s := by
  have pending : s.device.dispReq = true ∧ s.disp.answer = none := ⟨decide_eq_true htr, hans⟩
  have sel : commandSelect s = some (.opcode v) := by
    rw [commandSelect, if_pos pending, Block.cmdOpcode, hop]
    rfl
  simp only [dispatcherMove, if_pos pending, sel, dec]

/-! ### Steps -/

section
variable {s s0 : State} {rest : List Move}

/-- A step is the move at the front of the script. -/
theorem step_runMove {m : Move} (hs : s.script = m :: rest) (h0 : s0 = { s with script := rest }) :
    step s = runMove m s0 := h0 ▸ step_of_script hs

theorem step_hostCycle {i : HostIn} (hs : s.script = .host i :: rest)
    (h0 : s0 = { s with script := rest, turn := .host }) : step s = hostCycle i s0 := h0 ▸ step_of_script hs

theorem step_deviceCycle {i : DevIn} (hs : s.script = .device i :: rest)
    (h0 : s0 = { s with script := rest, turn := .device }) : step s = deviceCycle i s0 := h0 ▸ step_of_script hs

end

/-! ### A HOST cycle in H_IDLE and H_SEND (42_host_correlator R180) -/

section
variable {i : HostIn} {s : State} (hrst : i.rst = false) (hrd : s.host.readFault i.rd = none)
include hrst hrd

theorem hostCycle_call {id op : Byte} {n : Nat} (htr : s.host.trState = .hIdle) (hstart : i.start = some (id, op, n)) :
    hostCycle i s = exec (.hostCall id op n) (clientWrite i s) := by
  have sel := hostSelect_idle i htr
  rw [hstart] at sel
  rw [hostCycle_of_operation hrst hrd sel, andThen_hostAfter (by simp)]
  rfl

theorem hostCycle_noCall (htr : s.host.trState = .hIdle) (hstart : i.start = none) :
    hostCycle i s = .next (clientWrite i s) := by
  have sel := hostSelect_idle i htr
  rw [hstart] at sel
  exact hostCycle_of_nothing hrst hrd (by simp [htr]) sel

theorem hostCycle_chfailSend (htr : s.host.trState = .hSend) (hbusy : s.host.busy = true) (hfail : i.chFail = true) :
    hostCycle i s = exec .hostChfailSend s := by
  rw [hostCycle_of_operation hrst hrd (hostSelect_chfailSend htr hfail), andThen_hostAfter (by simp),
    clientWrite_busy i hbusy]
  rfl

theorem hostCycle_send {t : State} (htr : s.host.trState = .hSend) (hrun : s.host.encRun = true)
    (hbusy : s.host.busy = true) (hfail : i.chFail = false) (ready : i.txReady = true)
    (ht : exec .hostSend s = .next t) :
    hostCycle i s = if t.host.encRun = false then exec .hostEnterRecv t else .next t := by
  have sel := hostSelect_send htr hrun hfail hrst
  rw [if_pos ready] at sel
  exact hostCycle_of_send hrst hrd sel ((clientWrite_busy i hbusy).symm ▸ ht)

theorem hostCycle_sendWaits (htr : s.host.trState = .hSend) (hrun : s.host.encRun = true) (hbusy : s.host.busy = true)
    (hfail : i.chFail = false) (notReady : i.txReady = false) : hostCycle i s = .next s := by
  have sel := hostSelect_send htr hrun hfail hrst
  rw [if_neg (by simp [notReady])] at sel
  rw [hostCycle_of_nothing hrst hrd (by simp [htr]) sel, clientWrite_busy i hbusy]

end

/-! ### A DEVICE cycle in each state (43_device_responder R210) -/

section
variable {i : DevIn} {s : State} (hrst : i.rst = false) (hrd : s.device.readFault i.rd = none)
include hrst hrd

theorem deviceCycle_recv {v : Byte} {rest : List Byte} (htr : s.device.trState = .dRecv)
    (hrun : s.device.decRun = true) (offered : i.rxValid = true) (hhd : s.hd = v :: rest) :
    deviceCycle i s = exec (.devRecv v) { s with hd := rest } := by
  have sel := deviceSelect_recv i htr
  rw [offered, hrst, delivered_of_stream (r := .device) hrun hhd] at sel
  rw [deviceCycle_of_operation hrst hrd sel, dispatcherWrite_closed i (by simp [htr]), deviceBefore, State.takeFront,
    otherRole_device, stream_host, hhd]
  rfl

theorem deviceCycle_recvWaits (htr : s.device.trState = .dRecv) (nothing : i.rxValid = false ∨ s.hd = []) :
    deviceCycle i s = .next s := by
  have sel := deviceSelect_recv i htr
  rw [delivered_none (r := .device) false i.rst nothing] at sel
  rw [deviceCycle_of_none hrst (readOk_of_readFault hrd) sel, dispatcherWrite_closed i (by simp [htr])]

theorem deviceCycle_respond {st : Byte} {n : Nat} (htr : s.device.trState = .dDispatch)
    (pulse : i.ack = .port st n ∨ i.ack = .own ∧ s.disp.answer = some (st, n)) :
    deviceCycle i s = exec (.devRespond st n) { dispatcherWrite i s with disp := { s.disp with answer := none } } := by
  have sel := deviceSelect_dispatch i htr
  rw [ackPulse_some pulse] at sel
  exact deviceCycle_of_operation hrst hrd sel

theorem deviceCycle_respondWaits (htr : s.device.trState = .dDispatch)
    (noPulse : i.ack = .low ∨ i.ack = .own ∧ s.disp.answer = none) :
    deviceCycle i s = .next (dispatcherWrite i s) := by
  have sel := deviceSelect_dispatch i htr
  rw [ackPulse_none noPulse] at sel
  exact deviceCycle_of_none hrst (readOk_of_readFault hrd) sel

theorem deviceCycle_send (htr : s.device.trState = .dSend) (hrun : s.device.encRun = true)
    (ready : i.txReady = true) : deviceCycle i s = exec .devSend s := by
  have sel := deviceSelect_send htr hrun hrst
  rw [if_pos ready] at sel
  rw [deviceCycle_of_operation hrst hrd sel, dispatcherWrite_closed i (by simp [htr])]
  rfl

theorem deviceCycle_sendWaits (htr : s.device.trState = .dSend) (hrun : s.device.encRun = true)
    (notReady : i.txReady = false) : deviceCycle i s = .next s := by
  have sel := deviceSelect_send htr hrun hrst
  rw [if_neg (by simp [notReady])] at sel
  rw [deviceCycle_of_none hrst (readOk_of_readFault hrd) sel, dispatcherWrite_closed i (by simp [htr])]

end

/-- Settles O46: a step is its move, a cycle is the operation that it selects, and what it selects is known by state. -/
theorem stepRunsTheSelectedOperation : Obligations.StepRunsTheSelectedOperation := by
  refine ⟨fun s hs => by simp only [step, hs], fun s s0 m rest hs h0 => ?_, fun s s0 i rest op hs h0 hrst hrd sel => ?_,
    fun s s0 i rest op hs h0 hrst hrd sel => (step_deviceCycle hs h0).trans (deviceCycle_of_operation hrst hrd sel),
    fun s s0 rest v i hs h0 htr hans hop dec => (step_runMove hs h0).trans (dispatcherMove_serves htr hans hop dec),
    fun i s ok hrst hrd => ⟨fun htr => ?_, fun htr => ?_⟩,
    fun i s ok hrst hrd => ⟨fun htr => ?_, fun htr => ?_, fun htr => ?_⟩⟩
  · have move := step_runMove hs h0
    refine ⟨?_, ?_, ?_, ?_, ?_, ?_⟩
    · rintro i rfl; exact move
    · rintro i rfl; exact move
    · rintro rfl quiet; exact move.trans (dispatcherMove_idle quiet)
    · rintro rfl; exact move
    · rintro r k rfl; exact move
    · rintro r k v rfl; exact move
  · have cycle := step_hostCycle hs h0
    refine ⟨fun notSend => ?_, ?_⟩
    · exact cycle.trans ((hostCycle_of_operation hrst hrd sel).trans (andThen_hostAfter notSend _))
    · rintro rfl t ht
      exact cycle.trans (hostCycle_of_send hrst hrd sel ht)
  · exact ⟨fun _ _ _ hstart => hostCycle_call hrst hrd htr hstart, hostCycle_noCall hrst hrd htr⟩
  · obtain ⟨hrun, -, hbusy, -⟩ := hostOk_sending ok htr
    exact ⟨hostCycle_chfailSend hrst hrd htr hbusy,
      fun hfail ready _ ht => hostCycle_send hrst hrd htr hrun hbusy hfail ready ht,
      hostCycle_sendWaits hrst hrd htr hrun hbusy⟩
  · obtain ⟨-, hrun, -⟩ := deviceOk_receiving ok htr
    exact ⟨fun _ _ offered hhd => deviceCycle_recv hrst hrd htr hrun offered hhd, deviceCycle_recvWaits hrst hrd htr⟩
  · exact ⟨fun _ _ pulse => deviceCycle_respond hrst hrd htr pulse, deviceCycle_respondWaits hrst hrd htr⟩
  · obtain ⟨hrun, -⟩ := deviceOk_sending ok htr
    exact ⟨deviceCycle_send hrst hrd htr hrun, deviceCycle_sendWaits hrst hrd htr hrun⟩

end Sys2Proof.Machine

/-! PROOF of O59 (42_host_correlator R195). The send phase is the send loop of O57, or a part of it when the channel
fails. The receive phase is an induction over its events: the registers carry what `receiveFrom` carries, the event that
ends one ends the other with the same outcome, and an idle HOST lets the remaining events pass. -/

namespace Sys2Proof.Machine

/-! ### A send that has not ended -/

/-- While fewer bytes have been accepted than the encoder sends, exactly those bytes have joined the stream, and the
block still sends. -/
theorem run_sends_part {r : Role} {b c : Block} {w : List Byte} {ready : List Bool} (h : b.Sends w c) {s : State}
    (hb : s.block r = b) (htr : b.trState = sendingIn r) (hroom : (s.stream r).length + w.length ≤ s.params.chDepth)
    (hcount : ready.count true < w.length) (rest : List Move) :
    ∃ b', runSteps ready.length (s.inCycle r (ready.map (fun c => readyCycle c r) ++ rest)) =
        .next (((s.inCycle r rest).setBlock r b').setStream r (s.stream r ++ w.take (ready.count true))) ∧
      b'.trState = sendingIn r := by
  induction ready generalizing s b w with
  | nil =>
    subst hb
    have unchanged : ((s.inCycle r rest).setBlock r (s.block r)).setStream r (s.stream r ++ []) = s.inCycle r rest := by
      cases r <;> simp [State.inCycle, State.setBlock, State.setStream]
    refine ⟨s.block r, ?_, htr⟩
    rw [List.count_nil, List.take_zero, unchanged]
    rfl
  | cons accepts ready ih =>
    subst hb
    cases accepts with
    | false =>
      have idle := step_idle (s := s.inCycle r (readyCycle false r :: (ready.map (readyCycle · r) ++ rest))) rfl
        (.inl ⟨by simpa using htr, rfl⟩)
      rw [List.map_cons, List.cons_append, List.length_cons, runSteps_of_step _ idle, inCycle_inCycle]
      simpa using ih h rfl htr hroom (by simpa using hcount)
    | true =>
      cases h with
      | nil => simp at hcount
      | @cons _ b' _ v w run inside once more =>
        have hcount' : ready.count true < w.length := by simpa using hcount
        simp only [List.length_cons] at hroom
        have goes : b'.encRun = true := by
          by_contra stopped
          obtain ⟨rfl, -⟩ := sends_stopped more (by simpa using stopped)
          exact absurd hcount' (Nat.not_lt_zero _)
        have st := step_accept (s := s.inCycle r (acceptCycle r :: (ready.map (readyCycle · r) ++ rest))) rfl
          (by simpa using htr) (by simpa using run) (by simpa using inside) (by simpa using once)
        rw [emit_of_room v (by simp; omega), afterAccept_running (by simpa using goes)] at st
        obtain ⟨b'', later, htr'⟩ := ih (s := (s.setBlock r b').setStream r (s.stream r ++ [v])) more (by simp)
          ((sendOnce_trState once).trans htr) (by simp; omega) hcount'
        refine ⟨b'', ?_, htr'⟩
        rw [List.map_cons, readyCycle_true, List.cons_append, List.length_cons, runSteps_of_step _ st]
        cases r <;> simpa [State.inCycle, State.setBlock, State.setStream, State.stream] using later

/-! ### An idle HOST -/

/-- A HOST cycle without reset, start and port access. -/
def HostIn.withoutStart (i : HostIn) : Prop := i.rst = false ∧ i.start = none ∧ i.pw = none ∧ i.rd = none

/-- Without a start an idle HOST does nothing (42_host_correlator R180). -/
theorem step_withoutStart {i : HostIn} {s : State} {rest : List Move} (hs : s.script = .host i :: rest)
    (hidle : s.host.trState = .hIdle) (h : i.withoutStart) : step s = .next (s.inCycle .host rest) := by
  obtain ⟨hrst, hstart, hpw, hrd⟩ := h
  have cycle : step s = hostCycle i (s.inCycle .host rest) := step_hostCycle hs rfl
  rw [cycle, hostCycle_noCall (s := s.inCycle .host rest) hrst (by rw [hrd]; rfl) hidle hstart, clientWrite_none hpw]

theorem run_withoutStart {s : State} (hidle : s.host.trState = .hIdle) {moves : List Move}
    (h : ∀ m ∈ moves, ∃ i : HostIn, m = .host i ∧ i.withoutStart) (rest : List Move) :
    runSteps moves.length (s.inCycle .host (moves ++ rest)) = .next (s.inCycle .host rest) := by
  induction moves with
  | nil => rfl
  | cons m moves ih =>
    obtain ⟨⟨i, rfl, hi⟩, later⟩ := List.forall_mem_cons.1 h
    have idle := step_withoutStart (s := s.inCycle .host (.host i :: (moves ++ rest))) rfl hidle hi
    rw [List.cons_append, List.length_cons, runSteps_of_step _ idle, inCycle_inCycle]
    exact ih later

/-- No event of the receive side starts a call. -/
theorem callMoves_withoutStart {n : Nat} {e : CallEvent} {m : Move} (h : m ∈ callMoves n e) :
    ∃ i : HostIn, m = .host i ∧ i.withoutStart := by
  cases e with
  | fail => exact ⟨_, List.mem_singleton.1 h, rfl, rfl, rfl, rfl⟩
  | dec e =>
    cases e with
    | byte v => exact ⟨_, List.mem_singleton.1 h, rfl, rfl, rfl, rfl⟩
    | eod => exact ⟨_, List.eq_of_mem_replicate h, rfl, rfl, rfl, rfl⟩

/-- The HOST cycles that stand for these events (60_exceptions R271, R292). -/
def eventMoves (n : Nat) (ein : List CallEvent) : List Move := ein.flatMap (callMoves n)

theorem eventMoves_cons (n : Nat) (e : CallEvent) (ein : List CallEvent) :
    eventMoves n (e :: ein) = callMoves n e ++ eventMoves n ein := List.flatMap_cons

theorem run_eventMoves_idle {s : State} (hidle : s.host.trState = .hIdle) (n : Nat) (ein : List CallEvent)
    (rest : List Move) :
    runSteps (eventMoves n ein).length (s.inCycle .host (eventMoves n ein ++ rest)) = .next (s.inCycle .host rest) := by
  refine run_withoutStart hidle (fun m hm => ?_) rest
  obtain ⟨e, -, he⟩ := List.mem_flatMap.1 hm
  exact callMoves_withoutStart he

/-! ### How a call ends -/

/-- The HOST is idle with this result, status and response payload (42_host_correlator R190, R195). -/
structure Block.Reports (b : Block) (o : CallResult × Byte × List Byte) : Prop where
  idle : b.trState = .hIdle
  notBusy : b.busy = false
  done : b.done = true
  result : b.result = o.1
  status : b.respStatus = o.2.1
  payload : o.1 = .ok ∨ o.1 = .appStatus → b.payload = some o.2.2

theorem classify_ours (id st : Byte) (p : List Byte) :
    classify id (.frame (id :: st :: p)) = (if st = 0x00 then .ok else .appStatus, st, p) := by
  simp only [classify, ne_eq, not_true, if_false]
  split <;> rfl

theorem classify_other {id x : Byte} (st : Byte) (p : List Byte) (other : x ≠ id) :
    classify id (.frame (x :: st :: p)) = (.desync, 0x00, []) := if_pos other

/-- The tests of HOST.VALIDATE on a decoded frame classify it (42_host_correlator R189, R195). -/
theorem verdict_of_delivers {b : Block} {d : Decoded} (h : b.delivers d) :
    b.verdict = some ((classify b.curId d).1, (classify b.curId d).2.1) ∧
    ((classify b.curId d).1 = .ok ∨ (classify b.curId d).1 = .appStatus →
      b.payload = some (classify b.curId d).2.2) := by
  cases d with
  | timeout => exact h.elim
  | framingError => exact ⟨verdict_of_framingError h, by simp [classify]⟩
  | frame f =>
    obtain ⟨hres, hf⟩ := h
    have len : f.length = b.decLen := readRange_length hf
    match f with
    | [] => exact ⟨verdict_of_short hres (by rw [← len]; decide), by simp [classify]⟩
    | [x] => exact ⟨verdict_of_short hres (by rw [← len]; exact Nat.one_lt_two), by simp [classify]⟩
    | x :: st :: p =>
      obtain ⟨two, hid, hst, hp⟩ := holds_of_frame hf
      have two : 2 ≤ b.decLen := by omega
      by_cases same : x = b.curId
      · rw [same] at hid ⊢
        rw [classify_ours]
        exact ⟨verdict_of_status hres two hid hst, fun _ => hp⟩
      · rw [classify_other _ _ same]
        exact ⟨verdict_of_otherId hres two hid same, by simp⟩

/-! ### The events of the receive side, one by one -/

/-- The HOST reads a response to the call with this id, and its decoder carries `c` (42_host_correlator R185, R186). -/
structure Block.Reads (b : Block) (id : Byte) (c : DecCarry) : Prop where
  receiving : b.trState = .hRecv
  silent : b.encRun = false
  running : b.decRun = true
  fresh : b.idleCnt = 0
  ours : b.curId = id
  carries : b.carries c

/-- The system after HOST cycles that have come to the registers `b` and left `q` in the stream the HOST reads. -/
def State.hostAt (s : State) (rest : List Move) (b : Block) (q : List Byte) : State :=
  { s with host := b, dh := q, script := rest, turn := .host }

/-- The cycles that stand for the event end the call with this outcome. -/
def State.EventEnds (s : State) (e : CallEvent) (o : CallResult × Byte × List Byte) : Prop :=
  ∃ b q, (∀ rest, runSteps (callMoves s.params.nIdle e).length
      (s.inCycle .host (callMoves s.params.nIdle e ++ rest)) = .next (s.hostAt rest b q)) ∧ b.Reports o

/-- The cycle of a channel failure raises ChannelError (42_host_correlator R184, R188). -/
theorem step_fail {s : State} {rest : List Move} (hs : s.script = .host { chFail := true } :: rest)
    (htr : s.host.trState = .hSend ∨ s.host.trState = .hRecv) :
    step s = .next (s.hostAt rest (s.host.raise .channelError) s.dh) := by
  have rd : readOk (s.inCycle .host rest).host none := readOk_none _
  have cycle : step s = hostCycle { chFail := true } (s.inCycle .host rest) := step_hostCycle hs rfl
  rcases htr with htr | htr
  · have sel : hostSelect { chFail := true } (s.inCycle .host rest) = some .hostChfailSend :=
      hostSelect_chfailSend htr rfl
    rw [cycle, hostCycle_of_select rfl rfl rd sel, andThen_hostAfter (by simp)]
    exact if_pos htr
  · have sel : hostSelect { chFail := true } (s.inCycle .host rest) = some .hostChfailRecv := by
      simp [hostSelect, htr]
    rw [cycle, hostCycle_of_select rfl rfl rd sel, andThen_hostAfter (by simp)]
    exact if_pos htr

/-- A channel failure ends the call ChannelError (42_host_correlator R188). -/
theorem eventEnds_fail {s : State} (htr : s.host.trState = .hRecv) :
    s.EventEnds .fail (.channelError, 0x00, []) :=
  ⟨s.host.raise .channelError, s.dh, fun _ => (runSteps_one _).trans (step_fail rfl (.inr htr)),
    rfl, rfl, rfl, rfl, rfl, by simp⟩

theorem countTick_below {b : Block} {n : Nat} (h : b.idleCnt < n) :
    b.countTick n = { b with idleCnt := b.idleCnt + 1 } := if_pos h

/-- A tick before the last one counts (60_exceptions R291). -/
theorem step_tick {s : State} {rest : List Move} (hs : s.script = .host { tick := true } :: rest)
    (htr : s.host.trState = .hRecv) (more : s.host.idleCnt + 1 < s.params.nIdle) :
    step s = .next (s.hostAt rest { s.host with idleCnt := s.host.idleCnt + 1 } s.dh) := by
  have cycle : step s = hostCycle { tick := true } (s.inCycle .host rest) := step_hostCycle hs rfl
  have sel : hostSelect { tick := true } (s.inCycle .host rest) = none := by
    simp [hostSelect, htr, delivered_unoffered, Nat.ne_of_lt more]
  rw [cycle, hostCycle_of_none rfl (readOk_none _) sel, clientWrite_none rfl, hostTick, if_pos ⟨rfl, htr, rfl⟩,
    inCycle_host, inCycle_params, countTick_below (Nat.lt_of_succ_lt more)]
  rfl

/-- The registers of a HOST whose timer has expired, once its decode has ended (41_decoder R159, 60_exceptions R292). -/
def Block.expired (b : Block) (n : Nat) : Block :=
  { b with idleCnt := n, decRun := false, decRes := resAtEod b.decErr }

/-- The last tick runs HOST.TIMEOUT (42_host_correlator R187, 60_exceptions R292). -/
theorem step_lastTick {s : State} {rest : List Move} (hs : s.script = .host { tick := true } :: rest)
    (htr : s.host.trState = .hRecv) (hrun : s.host.decRun = true) (last : s.host.idleCnt + 1 = s.params.nIdle) :
    step s = validateOp (s.hostAt rest (s.host.expired s.params.nIdle) s.dh) := by
  have cycle : step s = hostCycle { tick := true } (s.inCycle .host rest) := step_hostCycle hs rfl
  have sel : hostSelect { tick := true } (s.inCycle .host rest) = some .hostTimeout := by
    simp [hostSelect, htr, delivered_unoffered, hrun, last]
  have counts : s.host.expire s.params.nIdle = s.host.expired s.params.nIdle := by
    rw [Block.expire, countTick_below (Nat.lt_of_succ_le (Nat.le_of_eq last)), last, Block.expired]
  rw [cycle, hostCycle_of_select rfl rfl (readOk_none _) sel, andThen_hostAfter (by simp), ← counts]
  exact execHostTimeout_eq (s := s.inCycle .host rest) htr hrun last

/-- As many ticks without a byte as the timer still needs run HOST.TIMEOUT (60_exceptions R291, R292). -/
theorem run_ticks {s : State} {n : Nat} (htr : s.host.trState = .hRecv) (hrun : s.host.decRun = true)
    (hn : s.host.idleCnt + (n + 1) = s.params.nIdle) (rest : List Move) :
    runSteps (n + 1) (s.inCycle .host (List.replicate (n + 1) (.host { tick := true }) ++ rest)) =
      validateOp (s.hostAt rest (s.host.expired s.params.nIdle) s.dh) := by
  induction n generalizing s with
  | zero => exact (runSteps_one _).trans (step_lastTick rfl htr hrun hn)
  | succ n ih =>
    have tick := step_tick
      (s := s.inCycle .host (.host { tick := true } :: (List.replicate (n + 1) (.host { tick := true }) ++ rest))) rfl
      htr (by simp; omega)
    rw [List.replicate_succ, List.cons_append, runSteps_of_step _ tick]
    exact ih (s := s.hostAt rest { s.host with idleCnt := s.host.idleCnt + 1 } s.dh) htr hrun
      (by simp [State.hostAt]; omega)

/-- The end of data ends the call Timeout, or FramingError with the error flag set (42_host_correlator R187). -/
theorem eventEnds_eod {s : State} {id : Byte} {c : DecCarry} (reads : s.host.Reads id c) (hn : 1 ≤ s.params.nIdle) :
    s.EventEnds (.dec .eod) (classify id (if c.err then .framingError else .timeout)) := by
  have ⟨htr, henc, hrun, fresh, _, _, herr, _⟩ := reads
  obtain ⟨n, hn⟩ := Nat.exists_eq_add_of_le' hn
  have run := run_ticks (n := n) htr hrun (by omega)
  rw [← hn] at run
  refine ⟨(s.host.expired s.params.nIdle).ended (if c.err then .framingError else .timeout) 0x00, s.dh,
    fun rest => ?_, ?_⟩
  · rw [callMoves, List.length_replicate, run rest]
    exact validateOp_of_verdict (s := s.hostAt rest (s.host.expired s.params.nIdle) s.dh) ⟨htr, rfl, henc⟩
      (verdict_of_eod (by rw [← herr]; rfl))
  · cases c.err <;> exact ⟨rfl, rfl, rfl, rfl, rfl, by simp [classify]⟩

/-- A delivered byte leaves the id of the call alone. -/
theorem recvOnce_curId (b : Block) (v : Byte) : (b.recvOnce v).curId = b.curId := by
  obtain ⟨_, _, _, _, _, _, e, -⟩ := recvOnce_writes b v
  rw [e]

/-- The cycle of a delivered byte runs the decoder, then HOST.VALIDATE if that ended (42_host_correlator R186). -/
theorem step_byte {s : State} {v : Byte} {q : List Byte} (htr : s.host.trState = .hRecv)
    (hrun : s.host.decRun = true) (hq : s.dh = v :: q) (rest : List Move) :
    step (s.inCycle .host (offerCycle .host :: rest)) =
      if (s.host.recvOnce v).decRun = false then validateOp (s.hostAt rest (s.host.recvOnce v) q)
      else .next (s.hostAt rest (s.host.recvOnce v) q) :=
  step_offer (r := .host) (s := s.inCycle .host (offerCycle .host :: rest)) rfl htr hrun hq rfl

section
variable {s : State} {id v : Byte} {c : DecCarry} {q : List Byte} (reads : s.host.Reads id c) (hq : s.dh = v :: q)
include reads hq

/-- A byte that does not end the decode keeps the HOST reading (42_host_correlator R186). -/
theorem step_byte_more {c' : DecCarry} (more : c.onByte Config.capRx v = .inl c') (rest : List Move) :
    step (s.inCycle .host (offerCycle .host :: rest)) = .next (s.hostAt rest (s.host.recvOnce v) q) ∧
    (s.host.recvOnce v).Reads id c' := by
  obtain ⟨htr, henc, hrun, -, hid, carries⟩ := reads
  obtain ⟨carries', running⟩ := recvOnce_carries carries more
  have running := running.trans hrun
  refine ⟨?_, (recvOnce_trState _ v).trans htr, (recvOnce_encRun _ v).trans henc, running, recvOnce_idleCnt _ v,
    (recvOnce_curId _ v).trans hid, carries'⟩
  exact (step_byte htr hrun hq rest).trans (if_neg (by simp [running]))

/-- The byte that ends the decode ends the call as the result is classified (42_host_correlator R186, R195). -/
theorem eventEnds_byte {d : Decoded} (ends : c.onByte Config.capRx v = .inr d) :
    s.EventEnds (.dec (.byte v)) (classify id d) := by
  obtain ⟨htr, henc, hrun, -, rfl, carries⟩ := reads
  obtain ⟨delivers, stopped⟩ := recvOnce_delivers carries ends
  have ready : (s.host.recvOnce v).AwaitsVerdict :=
    ⟨(recvOnce_trState _ v).trans htr, stopped, (recvOnce_encRun _ v).trans henc⟩
  obtain ⟨hverdict, hpay⟩ := verdict_of_delivers delivers
  rw [recvOnce_curId] at hverdict hpay
  refine ⟨(s.host.recvOnce v).ended (classify s.host.curId d).1 (classify s.host.curId d).2.1, q, fun rest => ?_,
    rfl, rfl, rfl, rfl, rfl, hpay⟩
  refine (runSteps_one _).trans ((step_byte htr hrun hq rest).trans ((if_pos stopped).trans ?_))
  exact validateOp_of_verdict (s := s.hostAt rest (s.host.recvOnce v) q) ready hverdict

end

/-! ### The receive phase -/

/-- After the event that ends the call the HOST is idle, and the other events pass it by. -/
theorem run_of_eventEnds {s : State} {e : CallEvent} {o : CallResult × Byte × List Byte} (h : s.EventEnds e o)
    (ein : List CallEvent) (rest : List Move) :
    ∃ b q, runSteps (eventMoves s.params.nIdle (e :: ein)).length
        (s.inCycle .host (eventMoves s.params.nIdle (e :: ein) ++ rest)) = .next (s.hostAt rest b q) ∧ b.Reports o := by
  obtain ⟨b, q, ends, reports⟩ := h
  refine ⟨b, q, ?_, reports⟩
  rw [eventMoves_cons, List.append_assoc, List.length_append, runSteps_add _ (ends _)]
  exact run_eventMoves_idle (s := s.hostAt rest b q) reports.idle _ ein rest

/-- The receive phase of a call computes `receiveFrom` (42_host_correlator R195). -/
theorem run_receive {id : Byte} {c : DecCarry} {ein : List CallEvent} {o : CallResult × Byte × List Byte} {s : State}
    {tail : List Byte} (h : receiveFrom Config.capRx id c ein = some o) (reads : s.host.Reads id c)
    (hn : 1 ≤ s.params.nIdle) (hq : s.dh = eventBytes ein ++ tail) (rest : List Move) :
    ∃ b q, runSteps (eventMoves s.params.nIdle ein).length
        (s.inCycle .host (eventMoves s.params.nIdle ein ++ rest)) = .next (s.hostAt rest b q) ∧ b.Reports o := by
  induction ein generalizing s c with
  | nil => cases h
  | cons e ein ih =>
    cases e with
    | fail =>
      cases h
      exact run_of_eventEnds (eventEnds_fail reads.receiving) ein rest
    | dec e =>
      cases e with
      | eod =>
        cases h
        exact run_of_eventEnds (eventEnds_eod reads hn) ein rest
      | byte v =>
        have hq : s.dh = v :: (eventBytes ein ++ tail) := hq
        rw [receiveFrom] at h
        cases once : c.onByte Config.capRx v with
        | inr d =>
          rw [once] at h
          cases h
          exact run_of_eventEnds (eventEnds_byte reads hq once) ein rest
        | inl c' =>
          rw [once] at h
          obtain ⟨st, reads'⟩ := step_byte_more reads hq once (eventMoves s.params.nIdle ein ++ rest)
          obtain ⟨b, q, run, reports⟩ :=
            ih (s := s.hostAt rest (s.host.recvOnce v) (eventBytes ein ++ tail)) h reads' hn rfl
          exact ⟨b, q, (runSteps_of_step _ st).trans run, reports⟩

/-! ### The send phase -/

/-- The cycle of a start begins the call (42_host_correlator R181). -/
theorem step_call {s : State} {id op : Byte} {n : Nat} {m : List Move}
    (hs : s.script = .host { start := some (id, op, n) } :: m) (hidle : s.host.trState = .hIdle)
    (hid : id ≠ Config.esc) (hcap : n ≤ s.params.capTxPay) :
    step s = .next ((s.inCycle .host m).setBlock .host (s.host.beginCall id op n)) := by
  have cycle : step s = hostCycle { start := some (id, op, n) } (s.inCycle .host m) := step_hostCycle hs rfl
  rw [cycle, hostCycle_call (s := s.inCycle .host m) rfl rfl hidle rfl, clientWrite_none rfl]
  exact exec_hostCall hidle hid hcap

/-- A call with a written payload sends its encoded frame (40_encoder R139). -/
theorem beginCall_sends {b : Block} (id op : Byte) {p : List Byte}
    (hp : Memory.readRange b.txpay 0 p.length = some p) :
    (b.beginCall id op p.length).Sends (encodeFrame (id :: op :: p)) (b.beginCall id op p.length).encodeEnded :=
  sends_encodeFrame rfl rfl (frameFrom_of_readRange rfl hp)

/-- Once its command is sent, the HOST reads the response (42_host_correlator R185). -/
theorem reads_after_send (b : Block) (id op : Byte) (n : Nat) :
    ((b.beginCall id op n).encodeEnded.turnToReceive .host).Reads id DecCarry.start :=
  ⟨rfl, rfl, rfl, rfl, rfl, carries_start rfl rfl rfl⟩

section
variable {s : State} {id op : Byte} {p : List Byte} {ready : List Bool} {rest : List Move}
  (hidle : s.host.trState = .hIdle) (hid : id ≠ Config.esc) (hcap : p.length ≤ s.params.capTxPay)
  (hp : Memory.readRange s.host.txpay 0 p.length = some p)
  (hroom : s.hd.length + (encodeFrame (id :: op :: p)).length ≤ s.params.chDepth)
  (hs : s.script =
    .host { start := some (id, op, p.length) } :: (ready.map (fun c => readyCycle c .host) ++ rest))
include hidle hid hcap hp hroom hs

/-- Under any backpressure the command is sent whole, and the HOST reads the response (42_host_correlator R183,
R185). -/
theorem run_call_ready (hcount : ready.count true = (encodeFrame (id :: op :: p)).length) :
    runSteps (1 + ready.length) s =
      .next { s with
        host := (s.host.beginCall id op p.length).encodeEnded.turnToReceive .host
        hd := s.hd ++ encodeFrame (id :: op :: p), script := rest, turn := .host } := by
  have start := (runSteps_one s).trans (step_call hs hidle hid hcap)
  rw [runSteps_add _ start]
  exact run_sends_ready (r := .host) (beginCall_sends id op hp) rfl rfl rfl rfl hroom hcount rfl

/-- Before its last byte is accepted, the accepted bytes have been sent, and the HOST still sends. -/
theorem run_call_part (hcount : ready.count true < (encodeFrame (id :: op :: p)).length) :
    ∃ b, runSteps (1 + ready.length) s =
        .next { s with
          host := b, hd := s.hd ++ (encodeFrame (id :: op :: p)).take (ready.count true), script := rest
          turn := .host } ∧
      b.trState = .hSend := by
  have start := (runSteps_one s).trans (step_call hs hidle hid hcap)
  rw [runSteps_add _ start]
  exact run_sends_part (r := .host) (s := s.setBlock .host (s.host.beginCall id op p.length))
    (beginCall_sends id op hp) rfl rfl hroom hcount rest

end

/-- Settles O59: a whole send and the receive phase, or a part of the send and the failure. -/
theorem hostCallIsTheRelation : Obligations.HostCallIsTheRelation := by
  intro s id op p ready ein tail rest w hw hidle hid hcap hn hp hroom
  subst hw
  refine ⟨fun res st pay call hdh hcount hs => ?_, fun k hk hcount hs => ?_⟩
  · have send := run_call_ready hidle hid hcap hp hroom hs hcount
    obtain ⟨-, received⟩ := Prod.mk.inj call
    obtain ⟨b, q, receive, reports⟩ := run_receive
      (s := { s with
        host := (s.host.beginCall id op p.length).encodeEnded.turnToReceive .host
        hd := s.hd ++ encodeFrame (id :: op :: p) })
      received (reads_after_send s.host id op p.length) hn hdh rest
    exact ⟨_, (runSteps_add _ send).trans receive, rfl, rfl, rfl, rfl, reports.idle, reports.notBusy, reports.done,
      reports.result, reports.status, reports.payload⟩
  · subst hcount
    obtain ⟨b, send, htr⟩ := run_call_part hidle hid hcap hp hroom hs hk
    have fail := (runSteps_add 1 send).trans ((runSteps_one _).trans (step_fail rfl (.inl htr)))
    rw [Nat.add_right_comm] at fail
    exact ⟨_, fail, rfl, rfl, rfl, rfl, rfl, rfl, rfl, rfl, rfl, rfl⟩

end Sys2Proof.Machine

/-! PROOF of O25 to O29 (43_device_responder R211 to R216). The three ways a device decode can end are one equation
each, and `Block.served` chooses among them as the model does; DEV.SEND is the encoder's operation, after whose last
byte the DEVICE receives. -/

namespace Sys2Proof.Machine

/-! ### What follows a decode that has ended -/

section
variable {s : State}

theorem discardOp_of_framingError (htr : s.device.trState = .dRecv) (hstop : s.device.decRun = false)
    (hres : s.device.decRes = .framingError) : discardOp s = .next { s with device := s.device.decStart } :=
  if_pos ⟨htr, hstop, hres⟩

theorem discardShortOp_of_short (htr : s.device.trState = .dRecv) (hstop : s.device.decRun = false)
    (hres : s.device.decRes = .frameOk) (short : s.device.decLen < 2) :
    discardShortOp s = .next { s with device := s.device.decStart } :=
  if_pos ⟨htr, hstop, hres, short⟩

/-- Only the first byte of the frame is looked at, and any id is taken (43_device_responder R214). -/
theorem dispatchOp_of_id {id : Byte} (htr : s.device.trState = .dRecv) (hstop : s.device.decRun = false)
    (hres : s.device.decRes = .frameOk) (two : 2 ≤ s.device.decLen) (hid : Memory.read s.device.rxbuf 0 = some id) :
    dispatchOp s = .next { s with device := { s.device with curId := id, trState := .dDispatch } } := by
  have selected : dispatchOp s = _ := if_pos ⟨htr, hstop, hres, two⟩
  rw [selected, hid]

/-- The outcomes by which a decode is served (43_device_responder R212 to R214). -/
theorem served_cases {b c : Block} (h : b.served = some c) :
    (b.decRes = .framingError ∧ c = b.decStart) ∨
    (b.decRes = .frameOk ∧ b.decLen < 2 ∧ c = b.decStart) ∨
    (b.decRes = .frameOk ∧ 2 ≤ b.decLen ∧ ∃ id, Memory.read b.rxbuf 0 = some id ∧
      c = { b with curId := id, trState := .dDispatch }) := by
  cases hres : b.decRes with
  | timeout | noResult => simp only [Block.served, hres, reduceCtorEq] at h
  | framingError =>
    simp only [Block.served, hres, Option.some.injEq] at h
    exact .inl ⟨rfl, h.symm⟩
  | frameOk =>
    simp only [Block.served, hres] at h
    split at h
    · next short => exact .inr (.inl ⟨rfl, short, (Option.some.inj h).symm⟩)
    · next long =>
      obtain ⟨id, hid, taken⟩ := Option.map_eq_some_iff.1 h
      exact .inr (.inr ⟨rfl, Nat.not_lt.1 long, id, hid, taken.symm⟩)

/-- A decode that has ended is followed by what its outcome asks for (43_device_responder R211). -/
theorem afterDecode_of_served {c : Block} (htr : s.device.trState = .dRecv) (hstop : s.device.decRun = false)
    (h : s.device.served = some c) : afterDecode s = .next { s with device := c } := by
  rcases served_cases h with ⟨hres, rfl⟩ | ⟨hres, short, rfl⟩ | ⟨hres, two, id, hid, rfl⟩
  · have discard : afterDecode s = discardOp s := by simp only [afterDecode, hres]
    exact discard.trans (discardOp_of_framingError htr hstop hres)
  · have discardShort : afterDecode s = discardShortOp s := by simp only [afterDecode, hres, if_pos short]
    exact discardShort.trans (discardShortOp_of_short htr hstop hres short)
  · have dispatch : afterDecode s = dispatchOp s := by simp only [afterDecode, hres, if_neg (Nat.not_lt.2 two)]
    exact dispatch.trans (dispatchOp_of_id htr hstop hres two hid)

end

/-- Whether the channel has room does not depend on the registers of the block that feeds it. -/
theorem setBlock_emit (s : State) (r : Role) (b : Block) (v : Byte) :
    (s.emit r v).setBlock r b = (s.setBlock r b).emit r v := by
  unfold State.emit
  rw [setBlock_stream, setBlock_params]
  split
  · cases r <;> rfl
  · rfl

/-! ### The operations of the loop one by one -/

/-- Settles O25: the byte, then R212, R213 or R214 if it ended the decode. -/
theorem devRecvDecodesAndServes : Obligations.DevRecvDecodesAndServes := by
  intro s v htr hrun
  rw [execDevRecv_eq v htr hrun]
  refine ⟨fun hgo => if_neg (by simp [hgo]), fun hstop b' served => ?_⟩
  rw [if_pos hstop]
  exact afterDecode_of_served (s := s.setBlock .device (s.device.recvOnce v)) ((recvOnce_trState _ v).trans htr) hstop
    served

/-- Settles O26. -/
theorem devDiscardsInSilence : Obligations.DevDiscardsInSilence :=
  fun _ htr hstop => ⟨discardOp_of_framingError htr hstop, discardShortOp_of_short htr hstop⟩

/-- Settles O27: the port shows the command that stands in `RXBUF` (10_state R39). -/
theorem devDispatchOffersTheCommand : Obligations.DevDispatchOffersTheCommand := by
  intro s id htr hstop hres two hid
  have dispatch : exec .devDispatch s = _ := dispatchOp_of_id htr hstop hres two hid
  refine ⟨dispatch, fun t h => ?_⟩
  cases dispatch.symm.trans h
  exact ⟨rfl, rfl, if_pos two, by simp only [Block.rxReady, hstop, Bool.false_and]⟩

/-- Settles O28. -/
theorem devRespondStartsTheResponse : Obligations.DevRespondStartsTheResponse :=
  fun _ _ _ htr fits => exec_devRespond htr fits

/-- Settles O29: the encoder operation of the table (40_encoder R138), and DEC.START after the last byte. -/
theorem devSendRunsTheEncoder : Obligations.DevSendRunsTheEncoder := by
  intro s v b' htr hrun inside once
  have send := devSend_of_encoderOp htr hrun (encoderOp_of_sendOnce (r := .device) hrun inside once)
  refine ⟨fun hgo => ?_, fun hend => ?_⟩
  · rwa [afterAccept_running (by simpa using hgo)] at send
  · rw [afterAccept_stopped (by simpa using hend), setBlock_emit, emit_block, setBlock_block] at send
    exact send

end Sys2Proof.Machine

/-! PROOF of O30, O31, O33 to O41, O43 and O44 (45_dispatcher_interface R230 to R254). A waiting command is answered
with its reply, and a reply is one equation per outcome of its own tests; that a record comes back as it was carried is
one lemma per layout. What holds of every row is read off the replies once: an answer is OK, or a status and nothing
else. -/

namespace Sys2Proof.Machine

/-! ### A waiting command is served -/

section
variable {s : State} {p : List Byte} {f : Dispatcher → List Byte → Bool → Reply} {r r' : Reply}

/-- A reply that does not use the free choice is the answer. -/
theorem serve_eq_answered (h : waiting s p) (operation : String) (reply : ∀ c, f s.disp p c = r) :
    serve operation f s = .next (answered s r) := by
  rw [serve_of_waiting h, reply]

/-- Where the rules allow two replies, the free choice gives one of them (log 12). -/
theorem serve_eq_answered_or (h : waiting s p) (operation : String)
    (reply : ∀ c, f s.disp p c = r ∨ f s.disp p c = r') :
    serve operation f s = .next (answered s r) ∨ serve operation f s = .next (answered s r') := by
  rw [serve_of_waiting h]
  exact (reply _).imp (fun e => by rw [e]) (fun e => by rw [e])

end

/-! ### Records in a payload (20_memory R63) -/

theorem be16_append (b1 b0 : Byte) : be16 (b1 ++ b0) = [b1, b0] := by
  rw [be16, BitVec.extractLsb'_append_eq_left, BitVec.extractLsb'_append_eq_right]

/-- A byte above the last one of a field is a byte of the field without its last. -/
theorem extractLsb'_append_byte {w : Nat} (x : BitVec w) (b : Byte) (k : Nat) :
    (x ++ b).extractLsb' (k + 8) 8 = x.extractLsb' k 8 := by
  rw [BitVec.extractLsb'_append_eq_of_le (Nat.le_add_left 8 k), Nat.add_sub_cancel]

theorem be32_append (b3 b2 b1 b0 : Byte) : be32 (b3 ++ b2 ++ b1 ++ b0) = [b3, b2, b1, b0] := by
  rw [be32, extractLsb'_append_byte _ b0 16, extractLsb'_append_byte _ b0 8, extractLsb'_append_byte _ b0 0,
    extractLsb'_append_byte _ b1 8, extractLsb'_append_byte _ b1 0, BitVec.extractLsb'_append_eq_left,
    BitVec.extractLsb'_append_eq_right, BitVec.extractLsb'_append_eq_right, BitVec.extractLsb'_append_eq_right]

/-- The bound of a two-byte field is a bound of its first byte. -/
theorem toNat_append_lt {b1 : Byte} {n : Nat} (b0 : Byte) (h : b1.toNat < n) : (b1 ++ b0).toNat < n * 256 := by
  have value : (b1 ++ b0).toNat = b1.toNat * 256 + b0.toNat := by
    rw [BitVec.toNat_append, ← Nat.shiftLeft_add_eq_or_of_lt b0.isLt, Nat.shiftLeft_eq]
  have := b0.isLt
  omega

theorem packOds_of_unpackOds {p : List Byte} {o : OdsRecord} (h : unpackOds p = some o) : packOds o = p := by
  unfold unpackOds at h
  split at h
  · cases h
    rw [packOds, be16_append]
    rfl
  · cases h

theorem packPa_of_unpackPa {p : List Byte} {v : PaRecord} (h : unpackPa p = some v) : packPa v = p := by
  unfold unpackPa at h
  split at h
  · cases h
    rw [packPa, be32_append, be32_append, be16_append]
    rfl
  · cases h

theorem be32_of_unpackFreq {p : List Byte} {x : BitVec 32} (h : unpackFreq p = some x) : be32 x = p := by
  unfold unpackFreq at h
  split at h
  · cases h
    exact be32_append _ _ _ _
  · cases h

theorem unpackOds_of_length_ne {p : List Byte} (h : p.length ≠ 9) : unpackOds p = none := by
  unfold unpackOds
  split
  · exact absurd rfl h
  · rfl

theorem unpackPa_of_length_ne {p : List Byte} (h : p.length ≠ 12) : unpackPa p = none := by
  unfold unpackPa
  split
  · exact absurd rfl h
  · rfl

/-- Any four bytes are a frequency (45_dispatcher_interface R241). -/
theorem unpackFreq_eq_none_iff (p : List Byte) : unpackFreq p = none ↔ p.length ≠ 4 := by
  unfold unpackFreq
  split
  · simp
  · next other =>
    refine iff_of_true rfl fun four => ?_
    obtain ⟨p0, p1, p2, p3, rfl⟩ := List.length_eq_four.1 four
    exact other _ _ _ _ rfl

/-! ### The replies, one equation per outcome of the tests -/

section
variable {d : Dispatcher} {p : List Byte} (c : Bool)

theorem answerGet_nil (v : List Byte) : answerGet v d [] c = Reply.okWith d v := if_pos (.inl rfl)

theorem replySetOds_malformed (h : unpackOds p = none) : replySetOds d p c = Reply.fail d statusFrameLen := by
  simp only [replySetOds, h]

theorem replySetOds_fitting {o : OdsRecord} (h : unpackOds p = some o) (fits : odsFits o = true) :
    replySetOds d p c = Reply.stored { d with ods := o } := by
  simp only [replySetOds, h, fits, true_or, if_true]

theorem replySetPa_malformed (h : unpackPa p = none) : replySetPa d p c = Reply.fail d statusFrameLen := by
  simp only [replySetPa, h]

theorem replySetPa_fitting {v : PaRecord} (h : unpackPa p = some v) (fits : paFits v = true) :
    replySetPa d p c = Reply.stored { d with pa := v } := by
  simp only [replySetPa, h, fits, true_or, if_true]

theorem replySetFreq_malformed (h : unpackFreq p = none) : replySetFreq d p c = Reply.fail d statusFrameLen := by
  simp only [replySetFreq, h]

theorem replySetFreq_four {x : BitVec 32} (h : unpackFreq p = some x) :
    replySetFreq d p c = Reply.stored { d with freq := x } := by
  simp only [replySetFreq, h]

theorem replySetFdev_malformed (h : p.length ≠ 1) : replySetFdev d p c = Reply.fail d statusFrameLen := by
  unfold replySetFdev
  split
  · exact absurd rfl h
  · rfl

theorem replySetFdev_inRange {v : Byte} (h : v.toNat ≤ fdevMax) :
    replySetFdev d [v] c = Reply.stored { d with fdev := v } := if_pos (.inl h)

theorem replySetEnc_inRange {v : Byte} (h : v.toNat ≤ encodingMax) :
    replySetEnc d [v] c = Reply.stored { d with enc := v } := if_pos h

theorem replySetEnc_outOfRange {v : Byte} (h : encodingMax < v.toNat) :
    replySetEnc d [v] c = Reply.fail d statusArgument := if_neg (Nat.not_le.2 h)

/-- The range test looks at the first byte alone (log 34). -/
theorem replySetEnc_malformed (h : p.length ≠ 1) (first : ∀ v ∈ p.head?, v.toNat ≤ encodingMax) :
    replySetEnc d p c = Reply.fail d statusFrameLen := by
  unfold replySetEnc
  split
  · rfl
  · exact absurd rfl h
  · exact if_pos (.inl (first _ rfl))

/-- With a wrong length the range test may come first (93 U5). -/
theorem replySetEnc_malformed_or (h : p.length ≠ 1) :
    replySetEnc d p c = Reply.fail d statusFrameLen ∨ replySetEnc d p c = Reply.fail d statusArgument := by
  unfold replySetEnc
  split
  · exact .inl rfl
  · exact absurd rfl h
  · exact ite_eq_or_eq _ _ _

theorem replyAppendFrame_fitting (h : d.frameBuf.length + p.length ≤ Config.frameBufCap) :
    replyAppendFrame d p c = Reply.stored { d with frameBuf := d.frameBuf ++ p } := if_neg (Nat.not_lt.2 h)

theorem replyAppendFrame_overflow (h : Config.frameBufCap < d.frameBuf.length + p.length) :
    replyAppendFrame d p c = Reply.fail d statusTooMuchData := if_pos h

theorem replyRfSend_sends (cookie : p.take 4 = sendCookie) (len : p.length = 4 + repeatCountWidth) :
    replyRfSend d p c = ⟨statusOk, [], d, some (radioJob d (p.drop 4))⟩ := (if_pos cookie).trans (if_pos len)

theorem replyRfSend_wrongLength (cookie : p.take 4 = sendCookie) (len : p.length ≠ 4 + repeatCountWidth) :
    replyRfSend d p c = Reply.fail d statusFrameLen := (if_pos cookie).trans (if_neg len)

theorem replyRfSend_wrongCookie (cookie : p.take 4 ≠ sendCookie) (len : p.length = 4 + repeatCountWidth) :
    replyRfSend d p c = Reply.fail d statusSendCookie := (if_neg cookie).trans (if_pos (.inl len))

/-- Without the cookie nothing is handed to the radio, whatever the length (93 U5). -/
theorem replyRfSend_wrongCookie_or (cookie : p.take 4 ≠ sendCookie) :
    replyRfSend d p c = Reply.fail d statusSendCookie ∨ replyRfSend d p c = Reply.fail d statusFrameLen := by
  rw [replyRfSend, if_neg cookie]
  exact ite_eq_or_eq _ _ _

end

/-! ### A reply is OK, or a status and nothing else (45_dispatcher_interface R231, R254) -/

/-- The statuses other than OK that a rule of 45_dispatcher_interface returns (R254). -/
def failStatuses : List Byte :=
  [statusUnknownCmd, statusFrameLen, statusArgument, statusSendCookie, statusTooMuchData]

/-- The reply is OK, or it is `Reply.fail` with one of `failStatuses`. -/
inductive Reply.OkOrFail (d : Dispatcher) : Reply → Prop
  | ok {r : Reply} (h : r.status = statusOk) : OkOrFail d r
  | fail {st : Byte} (h : st ∈ failStatuses) : OkOrFail d (Reply.fail d st)

section
variable (d : Dispatcher) (p : List Byte) (c : Bool)

theorem answerGet_okOrFail (v : List Byte) : (answerGet v d p c).OkOrFail d := by
  unfold answerGet
  split
  · exact .ok rfl
  · exact .fail (by decide)

theorem replySetOds_okOrFail : (replySetOds d p c).OkOrFail d := by
  unfold replySetOds
  split
  · exact .fail (by decide)
  · split
    · exact .ok rfl
    · exact .fail (by decide)

theorem replySetPa_okOrFail : (replySetPa d p c).OkOrFail d := by
  unfold replySetPa
  split
  · exact .fail (by decide)
  · split
    · exact .ok rfl
    · exact .fail (by decide)

theorem replySetFreq_okOrFail : (replySetFreq d p c).OkOrFail d := by
  unfold replySetFreq
  split
  · exact .fail (by decide)
  · exact .ok rfl

theorem replySetFdev_okOrFail : (replySetFdev d p c).OkOrFail d := by
  unfold replySetFdev
  split
  · split
    · exact .ok rfl
    · exact .fail (by decide)
  · exact .fail (by decide)

theorem replySetEnc_okOrFail : (replySetEnc d p c).OkOrFail d := by
  unfold replySetEnc
  split
  · exact .fail (by decide)
  · split
    · exact .ok rfl
    · exact .fail (by decide)
  · split
    · exact .fail (by decide)
    · exact .fail (by decide)

theorem replyAppendFrame_okOrFail : (replyAppendFrame d p c).OkOrFail d := by
  unfold replyAppendFrame
  split
  · exact .fail (by decide)
  · exact .ok rfl

theorem replyRfSend_okOrFail : (replyRfSend d p c).OkOrFail d := by
  unfold replyRfSend
  split
  · split
    · exact .ok rfl
    · exact .fail (by decide)
  · split
    · exact .fail (by decide)
    · exact .fail (by decide)

theorem dispatchReply_okOrFail (op : Byte) : (dispatchReply op d p c).OkOrFail d := by
  unfold dispatchReply
  split
  · exact answerGet_okOrFail d p c _
  · exact answerGet_okOrFail d p c _
  · exact answerGet_okOrFail d p c _
  · exact answerGet_okOrFail d p c _
  · exact replySetOds_okOrFail d p c
  · exact answerGet_okOrFail d p c _
  · exact replySetPa_okOrFail d p c
  · exact answerGet_okOrFail d p c _
  · exact replySetFreq_okOrFail d p c
  · exact answerGet_okOrFail d p c _
  · exact replySetFdev_okOrFail d p c
  · exact answerGet_okOrFail d p c _
  · exact replySetEnc_okOrFail d p c
  · exact .ok rfl
  · exact replyAppendFrame_okOrFail d p c
  · exact replyRfSend_okOrFail d p c
  · exact .fail (by decide)

end

/-- An opcode row is UNKNOWN, or the row of a listed opcode byte (30_encoding R98). -/
theorem eq_decodeOpcode_or_unknown {i : Instr} (row : i.group = .frameOpcode) :
    (∃ op, i = decodeOpcode op) ∨ ∃ v, i = .unknown v := by
  cases i with
  | unknown v => exact .inr ⟨v, rfl⟩
  | nop | getDevType | getDevRev | getOds | setOds | getPa | setPa | getFreq | setFreq | getFdev | setFdev | getEnc
  | setEnc | loadFrame | appendFrame | rfSend =>
    exact .inl ⟨_, (Except.ok.inj (decode_of_encode (f := .opcode _) rfl rfl)).symm⟩
  | _ => cases row

theorem waiting_of_serve {operation : String} {f : Dispatcher → List Byte → Bool → Reply} {s t : State}
    (h : serve operation f s = .next t) : ∃ p, waiting s p := by
  obtain ⟨htr, hans, p, hp, -⟩ := serve_next h
  exact ⟨p, htr, hans, hp⟩

/-- The operation of an opcode byte completes only by serving a command that waits (10_state R43). -/
theorem waiting_of_exec_decodeOpcode {op : Byte} {s t : State} (h : exec (decodeOpcode op) s = .next t) :
    ∃ p, waiting s p := by
  unfold decodeOpcode at h
  split at h <;> exact waiting_of_serve h

/-- What an opcode row does when it completes: it holds `Dispatch` of some opcode byte as its answer, which is OK or has
failed and has at most 12 bytes (45_dispatcher_interface R231, R254, R255). -/
theorem exec_opcode_next {i : Instr} {s t : State} (row : i.group = .frameOpcode) (h : exec i s = .next t) :
    ∃ r : Reply, r.OkOrFail s.disp ∧ r.payload.length ≤ maxResponse ∧ t = answered s r := by
  have ⟨op, same⟩ : ∃ op, exec i s = exec (decodeOpcode op) s := by
    rcases eq_decodeOpcode_or_unknown row with ⟨op, rfl⟩ | ⟨v, rfl⟩
    · exact ⟨op, rfl⟩
    · exact ⟨0xFF, rfl⟩
  rw [same] at h
  obtain ⟨p, hw⟩ := waiting_of_exec_decodeOpcode h
  rw [exec_decodeOpcode hw] at h
  cases h
  exact ⟨_, dispatchReply_okOrFail _ _ _ op, dispatchReply_length_le op _ _ _, rfl⟩

/-! ### NOP, the GET commands and the identity -/

/-- Settles O30: each row answers its value; the layouts are `packOds`, `packPa` and `be32` written out. -/
theorem nopAndGetsAnswerTheResidentState : Obligations.NopAndGetsAnswerTheResidentState := fun _ h =>
  ⟨serve_eq_answered (f := replyNop) h _ fun c => answerGet_nil c _,
    serve_eq_answered (f := replyGetOds) h _ fun c => answerGet_nil c _,
    serve_eq_answered (f := replyGetPa) h _ fun c => answerGet_nil c _,
    serve_eq_answered (f := replyGetFreq) h _ fun c => answerGet_nil c _,
    serve_eq_answered (f := replyGetFdev) h _ fun c => answerGet_nil c _,
    serve_eq_answered (f := replyGetEnc) h _ fun c => answerGet_nil c _⟩

/-- Settles O31: the forms are those the model leaves unspecified (log 11), cut to `maxResponse`. -/
theorem identityIsAnsweredInSomeWireForm : Obligations.IdentityIsAnsweredInSomeWireForm := by
  refine ⟨rfl, rfl, ?_, fun x => (Config.deviceTypeWire x).take maxResponse,
    fun x => (Config.deviceRevisionWire x).take maxResponse, fun _ => List.length_take_le _ _,
    fun _ => List.length_take_le _ _, fun s h => ⟨?_, ?_⟩⟩
  · rintro s ⟨-, -, -, -, -, -, htype, hrev, -⟩
    exact ⟨htype, hrev⟩
  · exact serve_eq_answered (f := replyGetDevType) h _ fun c => answerGet_nil c _
  · exact serve_eq_answered (f := replyGetDevRev) h _ fun c => answerGet_nil c _

/-! ### The SET commands -/

/-- Settles O33: the record is `unpackOds` of the payload, which `packOds` undoes. -/
theorem setOdsReplacesTheRecord : Obligations.SetOdsReplacesTheRecord := by
  intro s p h
  refine ⟨fun len => ?_, ?_⟩
  · exact serve_eq_answered (f := replySetOds) h _ fun c => replySetOds_malformed c (unpackOds_of_length_ne len)
  · rintro m c e g r1 r0 l d a rfl hc he hg hr hl hd ha
    have fits : odsFits ⟨m, c, e, g, r1 ++ r0, l, d, a⟩ = true :=
      decide_eq_true ⟨hc, he, hg, toNat_append_lt r0 hr, hl, hd, ha⟩
    exact ⟨serve_eq_answered (f := replySetOds) h _ fun c => replySetOds_fitting c rfl fits, packOds_of_unpackOds rfl⟩

/-- Settles O34: the record is `unpackPa` of the payload, which `packPa` undoes. -/
theorem setPaReplacesTheRecord : Obligations.SetPaReplacesTheRecord := by
  intro s p h
  refine ⟨fun len => ?_, ?_⟩
  · exact serve_eq_answered (f := replySetPa) h _ fun c => replySetPa_malformed c (unpackPa_of_length_ne len)
  · rintro a3 a2 a1 a0 b3 b2 b1 b0 l m n1 n0 rfl hl hm hn
    have fits : paFits ⟨a3 ++ a2 ++ a1 ++ a0, b3 ++ b2 ++ b1 ++ b0, l, m, n1 ++ n0⟩ = true :=
      decide_eq_true ⟨hl, hm, toNat_append_lt n0 hn⟩
    exact ⟨serve_eq_answered (f := replySetPa) h _ fun c => replySetPa_fitting c rfl fits, packPa_of_unpackPa rfl⟩

/-- Settles O35: `unpackFreq` takes any four bytes and nothing else. -/
theorem setFreqReplacesTheFrequency : Obligations.SetFreqReplacesTheFrequency := by
  intro s p h
  refine ⟨fun len => ?_, fun len => ?_⟩
  · have malformed := (unpackFreq_eq_none_iff p).2 len
    exact serve_eq_answered (f := replySetFreq) h _ fun c => replySetFreq_malformed c malformed
  · obtain ⟨x, hx⟩ := Option.ne_none_iff_exists'.1 (mt (unpackFreq_eq_none_iff p).1 (not_not.2 len))
    exact ⟨x, be32_of_unpackFreq hx, serve_eq_answered (f := replySetFreq) h _ fun c => replySetFreq_four c hx⟩

/-- Settles O36. -/
theorem setFdevReplacesTheIndex : Obligations.SetFdevReplacesTheIndex := by
  intro s p h
  refine ⟨fun len => ?_, ?_⟩
  · exact serve_eq_answered (f := replySetFdev) h _ fun c => replySetFdev_malformed c len
  · rintro v rfl hv
    exact serve_eq_answered (f := replySetFdev) h _ fun c => replySetFdev_inRange c hv

/-- Settles O37: the first byte in range leaves the length test alone; otherwise the order of the two tests is free. -/
theorem setEncTakesZeroOneTwo : Obligations.SetEncTakesZeroOneTwo := by
  intro s p h
  refine ⟨?_, fun len first => ?_, fun len => ?_⟩
  · rintro v rfl
    exact ⟨fun hv => serve_eq_answered (f := replySetEnc) h _ fun c => replySetEnc_inRange c hv,
      fun hv => serve_eq_answered (f := replySetEnc) h _ fun c => replySetEnc_outOfRange c hv⟩
  · exact serve_eq_answered (f := replySetEnc) h _ fun c => replySetEnc_malformed c len first
  · exact serve_eq_answered_or (f := replySetEnc) h _ fun c => replySetEnc_malformed_or c len

/-! ### The Frame Buffer and the transmission -/

/-- Settles O38: LOAD_FRAME tests nothing. -/
theorem loadFrameReplacesTheBuffer : Obligations.LoadFrameReplacesTheBuffer := fun _ _ h =>
  serve_eq_answered (f := replyLoadFrame) h _ fun _ => rfl

/-- Settles O39: the one test is the combined length against the capacity. -/
theorem appendFrameRespectsTheCapacity : Obligations.AppendFrameRespectsTheCapacity := fun _ _ h =>
  ⟨fun fits => serve_eq_answered (f := replyAppendFrame) h _ fun c => replyAppendFrame_fitting c fits,
    fun overflow => serve_eq_answered (f := replyAppendFrame) h _ fun c => replyAppendFrame_overflow c overflow⟩

/-- Settles O40: the width is the unspecified one of log 16; the cookie is tested before a count is looked at. -/
theorem rfSendIsGuardedByTheCookie : Obligations.RfSendIsGuardedByTheCookie := by
  refine ⟨repeatCountWidth, by unfold repeatCountWidth; omega, by unfold repeatCountWidth; omega, fun s p h =>
    ⟨?_, fun cookie len => ?_, fun cookie len => ?_, fun cookie _ => ?_⟩⟩
  · rintro count width rfl
    have len : ([0xCA, 0x4F, 0x09, 0x96] ++ count : List Byte).length = 4 + repeatCountWidth := by
      rw [List.length_append, width]
      rfl
    exact serve_eq_answered (f := replyRfSend) h _ fun c => replyRfSend_sends c rfl len
  · exact serve_eq_answered (f := replyRfSend) h _ fun c => replyRfSend_wrongCookie c cookie len
  · exact serve_eq_answered (f := replyRfSend) h _ fun c => replyRfSend_wrongLength c cookie len
  · exact serve_eq_answered_or (f := replyRfSend) h _ fun c => replyRfSend_wrongCookie_or c cookie

/-! ### Every opcode -/

/-- Settles O41: the opcode byte and the payload are not looked at. -/
theorem unlistedOpcodesAreUnknown : Obligations.UnlistedOpcodesAreUnknown := fun _ unlisted =>
  ⟨decodeOpcode_unlisted unlisted, fun _ _ h => serve_eq_answered (f := replyUnknown) h _ fun _ => rfl⟩

/-- Settles O43: a reply that is not OK is `Reply.fail`, which has nothing to store or to transmit. -/
theorem failedCommandsChangeNothing : Obligations.FailedCommandsChangeNothing := by
  intro i s t st n row h hans notOk
  obtain ⟨r, outcome, -, rfl⟩ := exec_opcode_next row h
  cases hans
  cases outcome with
  | ok status => exact absurd status notOk
  | fail _ => exact ⟨rfl, rfl, List.append_nil _⟩

/-- Settles O44: `failStatuses` and OK are the six. -/
theorem statusesAndResponsesAreBounded : Obligations.StatusesAndResponsesAreBounded := by
  intro i s t row h
  obtain ⟨r, outcome, len, rfl⟩ := exec_opcode_next row h
  refine ⟨r.status, r.payload.length, rfl, len, ?_⟩
  cases outcome with
  | ok status =>
    rw [status]
    exact List.mem_cons_self
  | fail mem => exact List.mem_cons_of_mem _ mem

end Sys2Proof.Machine

/-! PROOF of O52 (60_exceptions R282, R291, R292). During a call the client's port is closed, so a HOST cycle is the
operation it selects, or the count of its tick; in H_RECV the selection is the priority itself. -/

namespace Sys2Proof.Machine

/-! ### What a HOST cycle selects in H_RECV (60_exceptions R282) -/

section
variable {i : HostIn} {s : State} (htr : s.host.trState = .hRecv)
include htr

theorem hostSelect_chfailRecv (hfail : i.chFail = true) : hostSelect i s = some .hostChfailRecv := by
  simp only [hostSelect, htr, hfail, if_true]

/-- A byte is taken whether or not a tick comes with it. -/
theorem hostSelect_byte {v : Byte} (hfail : i.chFail = false)
    (hbyte : delivered s .host i.rxValid i.chFail i.rst = some v) : hostSelect i s = some (.hostRecv v) := by
  rw [hfail] at hbyte
  simp only [hostSelect, htr, hbyte, hfail, Bool.false_eq_true, if_false]

/-- Without a byte the only operation is that of the tick that expires the timer (60_exceptions R292). -/
theorem hostSelect_noByte (hfail : i.chFail = false) (hrun : s.host.decRun = true)
    (noByte : delivered s .host i.rxValid i.chFail i.rst = none) :
    hostSelect i s = if i.tick = true ∧ s.host.idleCnt + 1 = s.params.nIdle then some .hostTimeout else none := by
  rw [hfail] at noByte
  simp only [hostSelect, htr, noByte, hfail, hrun, true_and, Bool.false_eq_true, if_false]

end

/-! ### A HOST cycle during a call -/

section
variable {i : HostIn} {s : State} (hrst : i.rst = false) (hrd : s.host.readFault i.rd = none)
  (hbusy : s.host.busy = true)
include hrst hrd hbusy

/-- The operation that is selected is the whole cycle, but for the send that may have something to follow it
(42_host_correlator R185). -/
theorem hostCycle_busy {op : Instr} (notSend : op ≠ .hostSend) (sel : hostSelect i s = some op) :
    hostCycle i s = exec op (hostBefore op s) := by
  rw [hostCycle_of_operation hrst hrd sel, andThen_hostAfter notSend, clientWrite_busy i hbusy]

variable (htr : s.host.trState = .hRecv)
include htr

theorem hostCycle_chfailRecv (hfail : i.chFail = true) : hostCycle i s = exec .hostChfailRecv s :=
  hostCycle_busy hrst hrd hbusy (by simp) (hostSelect_chfailRecv htr hfail)

variable (hrun : s.host.decRun = true) (hfail : i.chFail = false)
include hrun hfail

/-- An offered byte leaves the stream and is decoded (42_host_correlator R186). -/
theorem hostCycle_recv {v : Byte} {rest : List Byte} (offered : i.rxValid = true) (hdh : s.dh = v :: rest) :
    hostCycle i s = exec (.hostRecv v) { s with dh := rest } := by
  have hbyte : delivered s .host i.rxValid i.chFail i.rst = some v := by
    rw [offered, hfail, hrst]
    exact delivered_of_stream (r := .host) hrun hdh
  rw [hostCycle_busy hrst hrd hbusy (by simp) (hostSelect_byte htr hfail hbyte), hostBefore, State.takeFront,
    otherRole_host, stream_device, hdh]
  rfl

variable (nothing : i.rxValid = false ∨ s.dh = [])
include nothing

/-- A cycle without a byte that does not expire the timer is its tick. -/
theorem hostCycle_recvWaits (notLast : ¬(i.tick = true ∧ s.host.idleCnt + 1 = s.params.nIdle)) :
    hostCycle i s = .next (hostTick i s) := by
  have sel := hostSelect_noByte htr hfail hrun (delivered_none (r := .host) i.chFail i.rst nothing)
  rw [if_neg notLast] at sel
  rw [hostCycle_of_none hrst (readOk_of_readFault hrd) sel, clientWrite_busy i hbusy]

theorem hostCycle_noTick (noTick : i.tick = false) : hostCycle i s = .next s := by
  rw [hostCycle_recvWaits hrst hrd hbusy htr hrun hfail nothing (by simp [noTick]), hostTick,
    if_neg (by simp [noTick])]

/-- A tick below the last counts (60_exceptions R291). -/
theorem hostCycle_tick (tick : i.tick = true) (more : s.host.idleCnt + 1 < s.params.nIdle) :
    hostCycle i s = .next { s with host := { s.host with idleCnt := s.host.idleCnt + 1 } } := by
  rw [hostCycle_recvWaits hrst hrd hbusy htr hrun hfail nothing fun last => Nat.ne_of_lt more last.2, hostTick,
    if_pos ⟨tick, htr, hfail⟩, countTick_below (Nat.lt_of_succ_lt more)]

/-- The tick that reaches `N_IDLE` counts and runs HOST.TIMEOUT (60_exceptions R292). -/
theorem hostCycle_lastTick (tick : i.tick = true) (last : s.host.idleCnt + 1 = s.params.nIdle) :
    hostCycle i s = exec .hostTimeout { s with host := { s.host with idleCnt := s.params.nIdle } } := by
  have sel := hostSelect_noByte htr hfail hrun (delivered_none (r := .host) i.chFail i.rst nothing)
  rw [if_pos ⟨tick, last⟩] at sel
  rw [hostCycle_busy hrst hrd hbusy (by simp) sel, hostBefore,
    countTick_below (Nat.lt_of_succ_le (Nat.le_of_eq last)), last]

end

/-- Settles O52: the invariant says that the call is in flight and the decoder runs, whatever else the cycle brings. -/
theorem eventsOfACycleHaveTheirPriority : Obligations.EventsOfACycleHaveTheirPriority := by
  intro s i ok hrst noRead
  have hrd : s.host.readFault i.rd = none := by
    rw [noRead]
    rfl
  refine ⟨fun hfail htr => ?_, fun hfail htr => ?_, fun hfail htr => ?_⟩
  · obtain ⟨-, -, hbusy, -⟩ := hostOk_sending ok htr
    exact hostCycle_chfailSend hrst hrd htr hbusy hfail
  · obtain ⟨-, -, hbusy, -⟩ := hostOk_receiving ok htr
    exact hostCycle_chfailRecv hrst hrd hbusy htr hfail
  · obtain ⟨-, hrun, hbusy, -⟩ := hostOk_receiving ok htr
    exact ⟨fun _ _ => hostCycle_recv hrst hrd hbusy htr hrun hfail,
      fun nothing => ⟨hostCycle_noTick hrst hrd hbusy htr hrun hfail nothing,
        hostCycle_tick hrst hrd hbusy htr hrun hfail nothing,
        hostCycle_lastTick hrst hrd hbusy htr hrun hfail nothing⟩⟩

end Sys2Proof.Machine

/-! PROOF of O32 and O42 (93_implementation_defined U6, U7). Where the rules leave the status open, a reply is one of
two, whichever way the free choice falls (log 12): the eight commands without parameters are one `answerGet` each, and a
record of the right length is stored whole or refused. -/

namespace Sys2Proof.Machine

section
variable {d : Dispatcher} {p : List Byte} (c : Bool)

/-! ### A payload on a command that takes none -/

theorem answerGet_ok_or_frameLen (v : List Byte) :
    answerGet v d p c = Reply.okWith d v ∨ answerGet v d p c = Reply.fail d statusFrameLen :=
  ite_eq_or_eq _ _ _

/-- NOP and the seven GET commands differ in the value they answer with alone (45_dispatcher_interface R233 to R244). -/
theorem dispatchReply_withoutParameters {op : Byte} (d : Dispatcher)
    (h : op ∈ ([0x00, 0x01, 0x02, 0x0A, 0x0C, 0x0E, 0x10, 0x12] : List Byte)) :
    ∃ v, ∀ p c, dispatchReply op d p c = answerGet v d p c := by
  simp only [List.mem_cons, List.not_mem_nil, or_false] at h
  rcases h with rfl | rfl | rfl | rfl | rfl | rfl | rfl | rfl <;> exact ⟨_, fun _ _ => rfl⟩

/-! ### A payload of the right length -/

/-- Any nine bytes are an ODS record (45_dispatcher_interface R250). -/
theorem unpackOds_of_length : ∀ {p : List Byte}, p.length = 9 → ∃ o, unpackOds p = some o
  | [_, _, _, _, _, _, _, _, _], _ => ⟨_, rfl⟩

/-- Any twelve bytes are a PA record (45_dispatcher_interface R251). -/
theorem unpackPa_of_length : ∀ {p : List Byte}, p.length = 12 → ∃ v, unpackPa p = some v
  | [_, _, _, _, _, _, _, _, _, _, _, _], _ => ⟨_, rfl⟩

theorem replySetOds_stored_or_argument {o : OdsRecord} (h : unpackOds p = some o) :
    replySetOds d p c = Reply.stored { d with ods := o } ∨ replySetOds d p c = Reply.fail d statusArgument := by
  simp only [replySetOds, h]
  exact ite_eq_or_eq _ _ _

theorem replySetPa_stored_or_argument {v : PaRecord} (h : unpackPa p = some v) :
    replySetPa d p c = Reply.stored { d with pa := v } ∨ replySetPa d p c = Reply.fail d statusArgument := by
  simp only [replySetPa, h]
  exact ite_eq_or_eq _ _ _

theorem replySetFdev_stored_or_argument (v : Byte) :
    replySetFdev d [v] c = Reply.stored { d with fdev := v } ∨
    replySetFdev d [v] c = Reply.fail d statusArgument :=
  ite_eq_or_eq _ _ _

end

/-- Settles O32: without payload the reply is OK with the value, and with one it is that or INVALID_FRAME_LEN. -/
theorem payloadOnAGetIsTolerated : Obligations.PayloadOnAGetIsTolerated := by
  intro op member s p h _ c
  obtain ⟨v, reply⟩ := dispatchReply_withoutParameters s.disp member
  rw [exec_decodeOpcode h, reply, reply, answerGet_nil]
  exact (answerGet_ok_or_frameLen _ v).imp (fun e => by rw [e]) (fun e => by rw [e]; rfl)

/-- Settles O42: a payload of the right length unpacks to a record, which packs to that payload again; what is stored is
this record or nothing. -/
theorem wideFieldsAreTakenOrRefused : Obligations.WideFieldsAreTakenOrRefused := by
  intro s p h
  refine ⟨fun len => ?_, fun len => ?_, ?_⟩
  · obtain ⟨o, ho⟩ := unpackOds_of_length len
    exact ⟨o, packOds_of_unpackOds ho,
      serve_eq_answered_or (f := replySetOds) h _ fun c => replySetOds_stored_or_argument c ho⟩
  · obtain ⟨v, hv⟩ := unpackPa_of_length len
    exact ⟨v, packPa_of_unpackPa hv,
      serve_eq_answered_or (f := replySetPa) h _ fun c => replySetPa_stored_or_argument c hv⟩
  · rintro v rfl
    exact serve_eq_answered_or (f := replySetFdev) h _ fun c => replySetFdev_stored_or_argument c v

end Sys2Proof.Machine
